-- ==== Sys2Proof/Word.lean ====
section
/-! DEFINITION. The plainest types of the block: a byte, a device handle, an access width, a transferred value. -/

namespace Sys2Proof

/-- One byte of a config space (spec R10, R27). -/
abbrev Byte := BitVec 8

/-- The abstract name of a device (spec R11: "drawn from a countable set"). DESIGN CHOICE (log 16): a natural number. -/
abbrev Handle := Nat

/-- The distinguished value that never names a device (spec R11). DESIGN CHOICE (log 16): it is 0. -/
abbrev nullHandle : Handle := 0

/-- The access widths of the block, in bytes (spec R10, R72). -/
inductive Width where
  | w1 | w2 | w4
  deriving DecidableEq, Repr

/-- The number of bytes an access of this width moves (spec R72). -/
def Width.bytes : Width → Nat
  | .w1 => 1
  | .w2 => 2
  | .w4 => 4

/-- A value of exactly 8, 16 or 32 bits, as a guest read or DEV_RD returns it (spec R57, R75). -/
inductive Value where
  | b8 (v : BitVec 8)
  | b16 (v : BitVec 16)
  | b32 (v : BitVec 32)
  deriving DecidableEq, Repr

end Sys2Proof
end

