-- ==== Sys2Proof/Syntax.lean ====
section
/-! DEFINITION. The operations of the block, one constructor per row of the opcode table (spec R79), and the form in which
an operation is presented: a 24-bit descriptor (spec R70) with its out-of-band operands (spec R75). -/

namespace Sys2Proof

/-- One operation with its operands (spec R75, R79). -/
inductive Instr where
  /-- CA_RD32: read the latch (spec R102). -/
  | caRd32
  /-- CA_WR32: replace the latch (spec R101). -/
  | caWr32 (v : BitVec 32)
  /-- CA_RD8: 8-bit read of port 0xCF8 (spec R105). -/
  | caRd8
  /-- CA_RD16: 16-bit read of port 0xCF8 (spec R106). -/
  | caRd16
  /-- CA_WR8: 8-bit write of port 0xCF8 (spec R103). -/
  | caWr8 (v : BitVec 8)
  /-- CA_WR16: 16-bit write of port 0xCF8 (spec R104). -/
  | caWr16 (v : BitVec 16)
  /-- CD_RD8 at port 0xCFC + off (spec R131). -/
  | cdRd8 (off : BitVec 2)
  /-- CD_RD16 at port 0xCFC + off (spec R132). -/
  | cdRd16 (off : BitVec 2)
  /-- CD_RD32 at port 0xCFC + off (spec R133). -/
  | cdRd32 (off : BitVec 2)
  /-- CD_WR8 at port 0xCFC + off (spec R134). -/
  | cdWr8 (off : BitVec 2) (v : BitVec 8)
  /-- CD_WR16 at port 0xCFC + off (spec R135). -/
  | cdWr16 (off : BitVec 2) (v : BitVec 16)
  /-- CD_WR32 at port 0xCFC + off (spec R136). -/
  | cdWr32 (off : BitVec 2) (v : BitVec 32)
  /-- DEV_RD: configRead of one device (spec R161). -/
  | devRd (h : Handle) (w : Width) (reg : BitVec 8)
  /-- DEV_WR: configWrite of one device; `v` has 8 * w bits, held in 32 (spec R162; `Instr.wellFormed`). -/
  | devWr (h : Handle) (w : Width) (reg : BitVec 8) (v : BitVec 32)
  /-- H_INIT (spec R220). -/
  | hInit
  /-- H_SHUTDOWN (spec R221). -/
  | hShutdown
  /-- H_REGISTER with an optional bus and an optional slot (spec R191). -/
  | hRegister (h : Handle) (bus slot : Option Nat)
  /-- H_UNREGISTER (spec R196). -/
  | hUnregister (h : Handle)
  /-- H_IS_INIT (spec R222). -/
  | hIsInit
  /-- H_CREATE with a vendor and a device ID (spec R223). -/
  | hCreate (vendor device : BitVec 16)
  /-- H_DEVSET: set one data byte and its mask byte (spec R224). -/
  | hDevset (h : Handle) (index data mask : BitVec 8)
  /-- H_DESTROY (spec R225). -/
  | hDestroy (h : Handle)
  deriving DecidableEq, Repr

/-- The direction of a transaction: descriptor bit 16 (spec R71, R73). -/
inductive Dir where
  | rd | wr
  deriving DecidableEq, Repr

/-- The operands that travel beside a descriptor (spec R75). DESIGN CHOICE (log 16): one record for all operations, of
which each operation reads only the fields R75 gives it, and of `value` only its own low 8 * w bits. -/
structure Operands where
  value : BitVec 32 := 0
  handle : Handle := nullHandle
  bus : Option Nat := none
  slot : Option Nat := none
  vendor : BitVec 16 := 0
  device : BitVec 16 := 0
  index : BitVec 8 := 0
  data : BitVec 8 := 0
  mask : BitVec 8 := 0
  deriving DecidableEq, Repr

/-- One operation as an agent presents it (spec R14, R70, R75). -/
structure Presented where
  descriptor : BitVec 24
  operands : Operands := {}
  deriving DecidableEq, Repr

end Sys2Proof
end

