-- ==== Sys2Proof/WellFormed.lean ====
section
/-! DEFINITION. The checks on an operation that its types do not carry. -/

namespace Sys2Proof

/-- `v` has no bit at or above 8 * w (spec R162: "The value's bits above 8*w do not exist"). -/
def Width.fits (w : Width) (v : BitVec 32) : Bool := decide (v.toNat < 2 ^ (8 * w.bytes))

/-- An operation is well formed when its value operand has 8 * w bits (spec R57, R75). Only DEV_WR carries a value whose
width is not in its type; every other field's range is its type. -/
def Instr.wellFormed : Instr → Bool
  | .devWr _ w _ v => w.fits v
  | .caRd32 | .caWr32 _ | .caRd8 | .caRd16 | .caWr8 _ | .caWr16 _ => true
  | .cdRd8 _ | .cdRd16 _ | .cdRd32 _ | .cdWr8 _ _ | .cdWr16 _ _ | .cdWr32 _ _ => true
  | .devRd _ _ _ => true
  | .hInit | .hShutdown | .hRegister _ _ _ | .hUnregister _ | .hIsInit => true
  | .hCreate _ _ | .hDevset _ _ _ _ | .hDestroy _ => true

end Sys2Proof
end

