-- ==== Sys2Proof/Decode.lean ====
section
/-! DEFINITION. The decoder of the 24-bit descriptor (spec R70 to R74, R80), total on every descriptor and every operand
record, and the encoder written from the same tables (spec R71 to R75, R79). -/

namespace Sys2Proof

/-- The reserved encodings, by name (spec R82, R255). -/
inductive Reserved where
  /-- iface = 11. -/
  | interface
  /-- A nonzero bit in a field marked "must be". -/
  | bits
  /-- size = 11 in format G or D. -/
  | size
  deriving DecidableEq, Repr

/-- What Classify makes of a descriptor alone (spec R80). -/
inductive Classified where
  /-- A CA_* row, at port 0xCF8. -/
  | addressPort (dir : Dir) (w : Width)
  /-- A CD_* row, at port 0xCFC + off. -/
  | dataPort (dir : Dir) (w : Width) (off : BitVec 2)
  /-- NotClaimed(ForeignPort). -/
  | foreign (dir : Dir) (w : Width) (port : BitVec 16)
  /-- DEV_RD or DEV_WR. -/
  | device (dir : Dir) (w : Width) (reg : BitVec 8)
  /-- A H_* row, by its operation code. -/
  | host (hop : BitVec 3)
  /-- A reserved encoding. -/
  | reserved (r : Reserved)
  deriving DecidableEq, Repr

/-- What the decoder makes of a presented operation. -/
inductive Decoded where
  | instr (i : Instr)
  | foreign (dir : Dir) (w : Width) (port : BitVec 16)
  | reserved (r : Reserved)
  deriving DecidableEq, Repr

/-- The width a size code names; 11 names none (spec R72). -/
def widthOfCode (c : BitVec 2) : Option Width :=
  if c = 0 then some .w1 else if c = 1 then some .w2 else if c = 2 then some .w4 else none

/-- The size code of a width (spec R72). -/
def codeOfWidth : Width → BitVec 2
  | .w1 => 0
  | .w2 => 1
  | .w4 => 2

/-- The direction a dir bit names: 0 read, 1 write (spec R71, R73). -/
def dirOfCode (c : BitVec 1) : Dir := if c = 0 then .rd else .wr

/-- The dir bit of a direction (spec R71, R73). -/
def codeOfDir : Dir → BitVec 1
  | .rd => 0
  | .wr => 1

/-- The address port (spec R61). -/
def addressPort : BitVec 16 := 0xCF8

/-- The first data port (spec R61). -/
def firstDataPort : BitVec 16 := 0xCFC

/-- The offset of a data port, `port - 0xCFC`, and none for any other port (spec R78). -/
def dataPortOffset (port : BitVec 16) : Option (BitVec 2) :=
  if port.extractLsb' 2 14 = firstDataPort.extractLsb' 2 14 then some (port.extractLsb' 0 2) else none

/-- The data port of an offset (spec R78). -/
def dataPort (off : BitVec 2) : BitVec 16 := firstDataPort ||| off.setWidth 16

/-- Format G (spec R71, R80): by the starting port alone. -/
def classifyGuest (dir : Dir) (w : Width) (port : BitVec 16) : Classified :=
  if port = addressPort then .addressPort dir w
  else match dataPortOffset port with
    | some off => .dataPort dir w off
    | none => .foreign dir w port

/-- Classify (spec R80). Where a format D descriptor has both a reserved size and a reserved bit, the size is named: the
spec gives the two names together (log 14). -/
def classify (d : BitVec 24) : Classified :=
  let iface := d.extractLsb' 22 2
  let dir := dirOfCode (d.extractLsb' 16 1)
  if iface = 3 then .reserved .interface
  else if d.extractLsb' 19 3 ≠ 0 then .reserved .bits
  else if iface = 2 then
    if d.extractLsb' 0 16 ≠ 0 then .reserved .bits else .host (d.extractLsb' 16 3)
  else match widthOfCode (d.extractLsb' 17 2) with
    | none => .reserved .size
    | some w =>
      if iface = 0 then classifyGuest dir w (d.extractLsb' 0 16)
      else if d.extractLsb' 8 8 ≠ 0 then .reserved .bits
      else .device dir w (d.extractLsb' 0 8)

/-- The low 8 * w bits of a value; the bits above them do not exist (spec R75, R162). -/
def truncTo (w : Width) (v : BitVec 32) : BitVec 32 :=
  match w with
  | .w1 => (v.setWidth 8).setWidth 32
  | .w2 => (v.setWidth 16).setWidth 32
  | .w4 => v

/-- The address-port operation of a direction and a width (spec R79). -/
def addressPortInstr (dir : Dir) (w : Width) (o : Operands) : Instr :=
  match dir, w with
  | .rd, .w1 => .caRd8
  | .rd, .w2 => .caRd16
  | .rd, .w4 => .caRd32
  | .wr, .w1 => .caWr8 (o.value.setWidth 8)
  | .wr, .w2 => .caWr16 (o.value.setWidth 16)
  | .wr, .w4 => .caWr32 o.value

/-- The data-port operation of a direction, a width and an offset (spec R79). -/
def dataPortInstr (dir : Dir) (w : Width) (off : BitVec 2) (o : Operands) : Instr :=
  match dir, w with
  | .rd, .w1 => .cdRd8 off
  | .rd, .w2 => .cdRd16 off
  | .rd, .w4 => .cdRd32 off
  | .wr, .w1 => .cdWr8 off (o.value.setWidth 8)
  | .wr, .w2 => .cdWr16 off (o.value.setWidth 16)
  | .wr, .w4 => .cdWr32 off o.value

/-- The device-port call of a direction (spec R73). -/
def deviceInstr (dir : Dir) (w : Width) (reg : BitVec 8) (o : Operands) : Instr :=
  match dir with
  | .rd => .devRd o.handle w reg
  | .wr => .devWr o.handle w reg (truncTo w o.value)

/-- The host call of an operation code; all eight codes are used (spec R74). -/
def hostInstr (hop : BitVec 3) (o : Operands) : Instr :=
  if hop = 0 then .hInit
  else if hop = 1 then .hShutdown
  else if hop = 2 then .hRegister o.handle o.bus o.slot
  else if hop = 3 then .hUnregister o.handle
  else if hop = 4 then .hIsInit
  else if hop = 5 then .hCreate o.vendor o.device
  else if hop = 6 then .hDevset o.handle o.index o.data o.mask
  else .hDestroy o.handle

/-- The decoder: Classify on the descriptor, then the operands R75 gives the operation. -/
def decode (p : Presented) : Decoded :=
  match classify p.descriptor with
  | .addressPort dir w => .instr (addressPortInstr dir w p.operands)
  | .dataPort dir w off => .instr (dataPortInstr dir w off p.operands)
  | .foreign dir w port => .foreign dir w port
  | .device dir w reg => .instr (deviceInstr dir w reg p.operands)
  | .host hop => .instr (hostInstr hop p.operands)
  | .reserved r => .reserved r

/-- The instruction the decoder reads from a descriptor whose bits are `w`, with every operand zero or absent. -/
def decodeTableWord (nbits w : Nat) : Option Instr :=
  if w % 2 ^ nbits < 2 ^ 24 then
    match decode { descriptor := BitVec.ofNat 24 (w % 2 ^ nbits) } with
    | .instr i => some i
    | .foreign _ _ _ => none
    | .reserved _ => none
  else none

/-- A format G descriptor: iface 00, size 18:17, dir 16, port 15:0 (spec R71). -/
def guestDescriptor (dir : Dir) (w : Width) (port : BitVec 16) : BitVec 24 :=
  ((codeOfWidth w).setWidth 24 <<< 17) ||| ((codeOfDir dir).setWidth 24 <<< 16) ||| port.setWidth 24

/-- A format D descriptor: iface 01, size 18:17, dir 16, reg 7:0 (spec R73). -/
def deviceDescriptor (dir : Dir) (w : Width) (reg : BitVec 8) : BitVec 24 :=
  (1#24 <<< 22) ||| ((codeOfWidth w).setWidth 24 <<< 17) ||| ((codeOfDir dir).setWidth 24 <<< 16) ||| reg.setWidth 24

/-- A format H descriptor: iface 10, hop 18:16 (spec R74). -/
def hostDescriptor (hop : BitVec 3) : BitVec 24 :=
  (2#24 <<< 22) ||| (hop.setWidth 24 <<< 16)

/-- The encoder: the descriptor of an operation and its operands in the record of R75. -/
def encode : Instr → Presented
  | .caRd32 => { descriptor := guestDescriptor .rd .w4 addressPort }
  | .caWr32 v => { descriptor := guestDescriptor .wr .w4 addressPort, operands := { value := v } }
  | .caRd8 => { descriptor := guestDescriptor .rd .w1 addressPort }
  | .caRd16 => { descriptor := guestDescriptor .rd .w2 addressPort }
  | .caWr8 v => { descriptor := guestDescriptor .wr .w1 addressPort, operands := { value := v.setWidth 32 } }
  | .caWr16 v => { descriptor := guestDescriptor .wr .w2 addressPort, operands := { value := v.setWidth 32 } }
  | .cdRd8 off => { descriptor := guestDescriptor .rd .w1 (dataPort off) }
  | .cdRd16 off => { descriptor := guestDescriptor .rd .w2 (dataPort off) }
  | .cdRd32 off => { descriptor := guestDescriptor .rd .w4 (dataPort off) }
  | .cdWr8 off v => { descriptor := guestDescriptor .wr .w1 (dataPort off), operands := { value := v.setWidth 32 } }
  | .cdWr16 off v => { descriptor := guestDescriptor .wr .w2 (dataPort off), operands := { value := v.setWidth 32 } }
  | .cdWr32 off v => { descriptor := guestDescriptor .wr .w4 (dataPort off), operands := { value := v } }
  | .devRd h w reg => { descriptor := deviceDescriptor .rd w reg, operands := { handle := h } }
  | .devWr h w reg v => { descriptor := deviceDescriptor .wr w reg, operands := { handle := h, value := v } }
  | .hInit => { descriptor := hostDescriptor 0 }
  | .hShutdown => { descriptor := hostDescriptor 1 }
  | .hRegister h b s => { descriptor := hostDescriptor 2, operands := { handle := h, bus := b, slot := s } }
  | .hUnregister h => { descriptor := hostDescriptor 3, operands := { handle := h } }
  | .hIsInit => { descriptor := hostDescriptor 4 }
  | .hCreate v d => { descriptor := hostDescriptor 5, operands := { vendor := v, device := d } }
  | .hDevset h i d m => { descriptor := hostDescriptor 6, operands := { handle := h, index := i, data := d, mask := m } }
  | .hDestroy h => { descriptor := hostDescriptor 7, operands := { handle := h } }

/-- A row of the opcode table: a descriptor selects it when `d &&& mask = pattern` (spec R79). -/
structure OpcodeRow where
  mnemonic : String
  pattern : BitVec 24
  mask : BitVec 24
  deriving DecidableEq, Repr

/-- The row of an operation, as the table of spec R79 gives it. -/
def rowOf : Instr → OpcodeRow
  | .caRd32 => ⟨"CA_RD32", 0x040CF8, 0xFFFFFF⟩
  | .caWr32 _ => ⟨"CA_WR32", 0x050CF8, 0xFFFFFF⟩
  | .caRd8 => ⟨"CA_RD8", 0x000CF8, 0xFFFFFF⟩
  | .caRd16 => ⟨"CA_RD16", 0x020CF8, 0xFFFFFF⟩
  | .caWr8 _ => ⟨"CA_WR8", 0x010CF8, 0xFFFFFF⟩
  | .caWr16 _ => ⟨"CA_WR16", 0x030CF8, 0xFFFFFF⟩
  | .cdRd8 _ => ⟨"CD_RD8", 0x000CFC, 0xFFFFFC⟩
  | .cdRd16 _ => ⟨"CD_RD16", 0x020CFC, 0xFFFFFC⟩
  | .cdRd32 _ => ⟨"CD_RD32", 0x040CFC, 0xFFFFFC⟩
  | .cdWr8 _ _ => ⟨"CD_WR8", 0x010CFC, 0xFFFFFC⟩
  | .cdWr16 _ _ => ⟨"CD_WR16", 0x030CFC, 0xFFFFFC⟩
  | .cdWr32 _ _ => ⟨"CD_WR32", 0x050CFC, 0xFFFFFC⟩
  | .devRd _ _ _ => ⟨"DEV_RD", 0x400000, 0xF9FF00⟩
  | .devWr _ _ _ _ => ⟨"DEV_WR", 0x410000, 0xF9FF00⟩
  | .hInit => ⟨"H_INIT", 0x800000, 0xFFFFFF⟩
  | .hShutdown => ⟨"H_SHUTDOWN", 0x810000, 0xFFFFFF⟩
  | .hRegister _ _ _ => ⟨"H_REGISTER", 0x820000, 0xFFFFFF⟩
  | .hUnregister _ => ⟨"H_UNREGISTER", 0x830000, 0xFFFFFF⟩
  | .hIsInit => ⟨"H_IS_INIT", 0x840000, 0xFFFFFF⟩
  | .hCreate _ _ => ⟨"H_CREATE", 0x850000, 0xFFFFFF⟩
  | .hDevset _ _ _ _ => ⟨"H_DEVSET", 0x860000, 0xFFFFFF⟩
  | .hDestroy _ => ⟨"H_DESTROY", 0x870000, 0xFFFFFF⟩

/-- A descriptor selects a row (spec R79). -/
abbrev OpcodeRow.selects (r : OpcodeRow) (d : BitVec 24) : Prop := d &&& r.mask = r.pattern

end Sys2Proof
end

