-- ==== Sys2Proof/Config.lean ====
section
/-! DEFINITION. What an implementation fixes (spec R5 to R9) and the values the spec leaves free (spec R8, R165, R223). -/

namespace Sys2Proof

/-- What an 8-bit or 16-bit access to port 0xCF8 does (spec R7, R103 to R106). -/
inductive NarrowAddr where
  | refuse
  | ignore
  | zextReplace
  deriving DecidableEq, Repr

/-- The implementation parameters. The two sizes are held less one, so that 1 <= NBUS <= 256 and 1 <= NSLOT <= 32
(spec R5, R6) hold of every value. -/
structure Params where
  /-- NBUS - 1 (spec R5). -/
  lastBus : BitVec 8
  /-- NSLOT - 1 (spec R6). -/
  lastSlot : BitVec 5
  /-- NARROW_ADDR (spec R7). -/
  narrowAddr : NarrowAddr
  /-- The handles whose CustomDev is not `Generic` (spec R9); every other handle is generic. -/
  customHandles : List Handle
  deriving DecidableEq, Repr

/-- NBUS (spec R5). -/
def Params.nbus (p : Params) : Nat := p.lastBus.toNat + 1

/-- NSLOT (spec R6). -/
def Params.nslot (p : Params) : Nat := p.lastSlot.toNat + 1

/-- The parameters of the machine that `State.reset` describes. NBUS = 2 and NSLOT = 4 are a DESIGN CHOICE (log 2): the
spec gives no value (R5, R6) and its test vectors use these. `refuse` and no custom handle are the spec's defaults (R7, R9). -/
def Params.standard : Params :=
  { lastBus := 1, lastSlot := 3, narrowAddr := .refuse, customHandles := [] }

/-- FREE VALUE (spec R8, R81; log 5). `UnclaimedRead(port, w)`: what the platform answers when the block does not claim a
read; `n` counts the draws made before it. The low `8 * w` bits are the value. -/
opaque Config.unclaimedRead (n : Nat) (port : BitVec 16) (w : Width) : BitVec 32

/-- FREE VALUE (spec R8, R165; log 5). `PastEndByte(h, i)`: the byte a generic read finds at an index i >= 256; `n` counts
the draws made before the read, so two reads need not agree. -/
opaque Config.pastEndByte (n : Nat) (h : Handle) (i : Nat) : Byte

/-- FREE VALUE (spec R223, U12; log 6). The handle the host's allocator proposes when `handleSupply` gives none; `n` counts
the draws made before it. -/
opaque Config.proposedHandle (n : Nat) : Handle

/-- UNINTERPRETED (spec R9, R168; log 7). The value `crd_h(rec, r, w)` returns; its low `8 * w` bits are the value. -/
opaque Config.customReadValue (h : Handle) (data mask : List Host.Cell) (r : BitVec 8) (w : Width) : BitVec 32

/-- UNINTERPRETED (spec R168; log 7). Data byte i of the record `crd_h(rec, r, w)` leaves. -/
opaque Config.customReadData (h : Handle) (data mask : List Host.Cell) (r : BitVec 8) (w : Width) (i : BitVec 8) : Byte

/-- UNINTERPRETED (spec R168; log 7). Mask byte i of the record `crd_h(rec, r, w)` leaves. -/
opaque Config.customReadMask (h : Handle) (data mask : List Host.Cell) (r : BitVec 8) (w : Width) (i : BitVec 8) : Byte

/-- UNINTERPRETED (spec R168; log 7). Data byte i of the record `cwr_h(rec, r, w, v)` leaves. -/
opaque Config.customWriteData (h : Handle) (data mask : List Host.Cell) (r : BitVec 8) (w : Width) (v : BitVec 32)
    (i : BitVec 8) : Byte

/-- UNINTERPRETED (spec R168; log 7). Mask byte i of the record `cwr_h(rec, r, w, v)` leaves. -/
opaque Config.customWriteMask (h : Handle) (data mask : List Host.Cell) (r : BitVec 8) (w : Width) (v : BitVec 32)
    (i : BitVec 8) : Byte

end Sys2Proof
end

