-- ==== Sys2Proof/Machine/State.lean ====
section
/-! DEFINITION. The state of the block, the reasons a step can stop, and the state after power-on. -/

namespace Sys2Proof.Machine

open Sys2Proof

/-- 256 bytes as a canonical list: indices strictly rising and below 256, no entry that is 0x00, an unlisted byte reads
0x00 (log 17). The form is `Memory.wf` in Machine/Ops.lean. -/
abbrev Memory := List Host.Cell

/-- A device record: 256 bytes of data and 256 bytes of write mask (spec R27). -/
structure DeviceRecord where
  data : Memory
  mask : Memory
  deriving DecidableEq, Repr

/-- The failure results of the host interface (spec R252). -/
inductive FailCode where
  /-- Code 1: H_REGISTER of `null`. -/
  | invalidArgument
  /-- Code 2: an explicit bus or slot outside the table. -/
  | outOfBounds
  /-- Code 3: the auto-assignment search found no empty cell. -/
  | noFreeSlot
  deriving DecidableEq, Repr

/-- What an operation gives back to its caller (spec R75). -/
inductive Response where
  /-- The value of a guest read or of DEV_RD. -/
  | data (v : Value)
  /-- An operation without a result completed. -/
  | done
  /-- A guest write the block does not claim (spec R81). -/
  | notClaimed
  /-- `Ok(slot)` of H_REGISTER (spec R194). -/
  | registered (slot : Nat)
  /-- `Fail(code)` of H_REGISTER (spec R252). -/
  | failed (code : FailCode)
  /-- The Boolean of H_UNREGISTER and H_IS_INIT. -/
  | bool (b : Bool)
  /-- The handle H_CREATE returns (spec R223). -/
  | handle (h : Handle)
  deriving DecidableEq, Repr

/-- The reasons a step stops for good. -/
inductive Fault where
  /-- Raised by every operation, and by every step, while `fatal` is set: after the fatal condition nothing runs (spec
  R254, U9). Safe: the spec gives no step there. -/
  | afterFatal
  deriving DecidableEq, Repr

/-- The reasons an operation has no meaning (spec R255). -/
inductive Refusal where
  /-- Raised by exec for an instruction without a meaning; none is left. Safe. -/
  | notModelled (mnemonic : String)
  /-- Raised by the fetch of a descriptor with iface 11 (spec R80, R82). Safe. -/
  | reservedInterface
  /-- Raised by the fetch of a descriptor with a nonzero "must be" bit (spec R80, R82). Safe. -/
  | reservedBits
  /-- Raised by the fetch of a format G or D descriptor with size 11 (spec R80, R82). Safe. -/
  | reservedSize
  /-- Raised by CA_RD8, CA_RD16, CA_WR8 and CA_WR16 when NARROW_ADDR is Refuse (spec R103 to R106). Safe. -/
  | narrowAddressAccess
  /-- Raised by DEV_RD and DEV_WR of a handle that is not in DS (spec R160). Safe. -/
  | noDevice
  /-- Raised by H_REGISTER, H_DEVSET and H_DESTROY of a handle that is not in DS (spec R191, R224, R225). Safe. -/
  | unknownDevice
  /-- Raised by H_REGISTER of a handle that is in a cell (spec R191). Safe. -/
  | alreadyRegistered
  /-- Raised by H_DESTROY of a handle that is in a cell (spec R225). Safe. -/
  | destroyRegistered
  deriving DecidableEq, Repr

/-- The machine. The spec's own state is the tuple (L, init, T, DS, fatal) of R20; the fields from `params` on are the
model's: the parameters, and the block's inputs and outputs as plain data (log 1, 3 to 6). -/
structure State where
  /-- L, the CONFIG_ADDRESS latch (spec R21). -/
  latch : BitVec 32
  /-- The port decode is installed (spec R24). -/
  init : Bool
  /-- T, the registry table: the occupied cells, keyed by `cellKey`, rising (spec R25; log 18). -/
  table : List (Nat × Handle)
  /-- DS, the device store, by handle, rising (spec R27; log 18). -/
  devices : List (Nat × DeviceRecord)
  /-- The terminal-error flag (spec R31). -/
  fatal : Bool
  /-- The implementation's parameters; no operation writes them (spec R5 to R9; log 1). -/
  params : Params
  /-- The operations presented and not yet taken, oldest first (spec R14, R63; log 3). -/
  inbox : List Presented
  /-- What was given back to the callers, newest first (spec R75; log 4). -/
  outbox : List Response
  /-- How many free values have been drawn (spec R8; log 5). -/
  draws : Nat
  /-- The handles H_CREATE has returned, newest first (spec R223; log 6). -/
  issued : List Handle
  /-- The handles the host's allocator proposes to the next H_CREATEs (spec R223, U12; log 6). -/
  handleSupply : List Handle
  deriving DecidableEq, Repr

/-- The block at power-on under parameters `p` (spec R24, R25, R27, R31, R35, R280). -/
def State.powerOn (p : Params) : State :=
  { latch := 0
    init := false
    table := []
    devices := []
    fatal := false
    params := p
    inbox := []
    outbox := []
    draws := 0
    issued := []
    handleSupply := [] }

/-- The machine right after reset: power-on under the standard parameters (log 2). -/
def State.reset : State := State.powerOn Params.standard

end Sys2Proof.Machine
end

