-- ==== Sys2Proof/Machine/Ops.lean ====
section
/-! DEFINITION. The named operations over the state: sorted maps, the bytes of a record, the device store, the registry
table, what is given back to a caller, the fatal condition, and taking the next presented operation. -/

namespace Sys2Proof.Machine

open Sys2Proof

/-! ## Sorted maps -/

/-- The value a map holds at a key. -/
def mapGet {α : Type} : List (Nat × α) → Nat → Option α
  | [], _ => none
  | (k', v) :: m, k => if k' = k then some v else mapGet m k

/-- Sets a key's value, in the place that keeps the keys rising. -/
def mapSet {α : Type} : List (Nat × α) → Nat → α → List (Nat × α)
  | [], k, v => [(k, v)]
  | (k', v') :: m, k, v =>
    if k < k' then (k, v) :: (k', v') :: m
    else if k = k' then (k, v) :: m
    else (k', v') :: mapSet m k v

/-- Removes a key. -/
def mapErase {α : Type} (m : List (Nat × α)) (k : Nat) : List (Nat × α) :=
  m.filter fun e => e.1 ≠ k

/-- The keys rise strictly. -/
abbrev mapSorted {α : Type} (m : List (Nat × α)) : Prop := (m.map Prod.fst).Pairwise (· < ·)

/-! ## The bytes of a record -/

/-- The canonical form of 256 bytes: strictly rising indices below 256, and no entry equal to what an unlisted byte reads. -/
abbrev Memory.wf (m : Memory) : Prop := mapSorted m ∧ ∀ c ∈ m, c.1 < 256 ∧ c.2 ≠ 0

/-- What an unlisted byte reads: 0x00, the content the construction defaults give every byte they do not name (spec R167;
the spec's own choice D9; log 17). -/
def unlistedByte : Byte := 0

/-- Reads one byte. -/
def readByte (m : Memory) (i : Nat) : Byte := (mapGet m i).getD unlistedByte

/-- Writes one byte and keeps the canonical form. -/
def writeByte (m : Memory) (i : Nat) (v : Byte) : Memory :=
  if v = unlistedByte then mapErase m i else mapSet m i v

/-- The canonical 256 bytes whose byte i is `f i`. -/
def memoryOf (f : BitVec 8 → Byte) : Memory :=
  (List.range 256).filterMap fun i =>
    if f (BitVec.ofNat 8 i) = unlistedByte then none else some (i, f (BitVec.ofNat 8 i))

/-- The byte of a transferred value that goes to index r + k: bits 8k+7:8k (spec R52). -/
def lane (v : BitVec 32) (k : Nat) : Byte := v.extractLsb' (8 * k) 8

/-- The masked write of one byte (spec R162): a byte at an index above 255 is dropped (spec R164). -/
def maskedWriteByte (d : DeviceRecord) (i : Nat) (vb : Byte) : DeviceRecord :=
  if i ≤ 255 then
    { d with data := writeByte d.data i ((readByte d.data i &&& ~~~ readByte d.mask i) ||| (vb &&& readByte d.mask i)) }
  else d

/-- `CfgWrite` on lanes 0 to n - 1 of `v`, from index r (spec R162). -/
def cfgWriteLanes (v : BitVec 32) (r : Nat) : Nat → DeviceRecord → DeviceRecord
  | 0, d => d
  | k + 1, d => maskedWriteByte (cfgWriteLanes v r k d) (r + k) (lane v k)

/-- The byte a generic read finds at index i: the stored byte, unmasked (spec R166), or a draw past the end (spec R165);
`n` counts the draws made before the read. -/
def cfgByte (n : Nat) (h : Handle) (d : DeviceRecord) (i : Nat) : Byte :=
  if i ≤ 255 then readByte d.data i else Config.pastEndByte n h i

/-- `CfgRead` of n bytes from index r, little-endian (spec R161). -/
def cfgReadLanes (draw : Nat) (h : Handle) (d : DeviceRecord) (r : Nat) : Nat → BitVec 32
  | 0 => 0
  | k + 1 => cfgReadLanes draw h d r k ||| ((cfgByte draw h d (r + k)).setWidth 32 <<< (8 * k))

/-- The record H_CREATE builds (spec R167, R32, R33). -/
def constructed (vendor device : BitVec 16) : DeviceRecord :=
  { data := writeByte (writeByte (writeByte (writeByte [] 0x00 (vendor.extractLsb' 0 8)) 0x01 (vendor.extractLsb' 8 8))
      0x02 (device.extractLsb' 0 8)) 0x03 (device.extractLsb' 8 8)
    mask := writeByte (writeByte [] 0x04 0x03) 0x05 0x04 }

/-! ## The device store -/

/-- The record of a handle, if it is in DS (spec R27). -/
def deviceOf (s : State) (h : Handle) : Option DeviceRecord := mapGet s.devices h

/-- Sets the record of a handle. -/
def setDevice (h : Handle) (d : DeviceRecord) (s : State) : State := { s with devices := mapSet s.devices h d }

/-- Removes a handle from DS. -/
def removeDevice (h : Handle) (s : State) : State := { s with devices := mapErase s.devices h }

/-- CustomDev(h) is not Generic (spec R9). -/
def isCustom (s : State) (h : Handle) : Bool := decide (h ∈ s.params.customHandles)

/-! ## The registry table -/

/-- The key of the cell (b, s): cells in row-major order; a bus has at most 32 slots (spec R6). -/
def cellKey (bus slot : Nat) : Nat := 32 * bus + slot

/-- T[b][s] (spec R25). -/
def cellAt (s : State) (bus slot : Nat) : Option Handle := mapGet s.table (cellKey bus slot)

/-- Lookup (spec R190). -/
def lookup (s : State) (bus slot : Nat) : Option Handle :=
  if bus ≥ s.params.nbus ∨ slot ≥ s.params.nslot then none else cellAt s bus slot

/-- h is in some cell of T: it is registry-owned (spec R30). -/
def registered (s : State) (h : Handle) : Bool := s.table.any fun e => e.2 = h

/-- h is in DS and in no cell: it is host-owned (spec R30). -/
def hostOwned (s : State) (h : Handle) : Bool := (deviceOf s h).isSome && !registered s h

/-- T[b][s] <- some h. -/
def fillCell (bus slot : Nat) (h : Handle) (s : State) : State :=
  { s with table := mapSet s.table (cellKey bus slot) h }

/-- The key of the first cell, in row-major order, that holds h (spec R196). -/
def cellOf (s : State) (h : Handle) : Option Nat := (s.table.find? fun e => e.2 = h).map Prod.fst

/-- Empties the cell with this key. -/
def clearCell (key : Nat) (s : State) : State := { s with table := mapErase s.table key }

/-! ## Results, draws, the fatal condition -/

/-- Gives a result back to the caller (spec R75). -/
def respond (r : Response) (s : State) : State := { s with outbox := r :: s.outbox }

/-- Counts one draw (spec R8). -/
def countDraw (s : State) : State := { s with draws := s.draws + 1 }

/-- The low 8 * w bits of a value as a result of that width (spec R57). -/
def valueOf (w : Width) (v : BitVec 32) : Value :=
  match w with
  | .w1 => .b8 (v.setWidth 8)
  | .w2 => .b16 (v.setWidth 16)
  | .w4 => .b32 v

/-- Taking the fatal condition, the one exception of the block: `fatal` is set and everything else is as before; nothing is
saved, nothing is returned, no handler is entered (spec R253, R259). There is no return from it: only power-on leaves it
(spec R260, R280). -/
def raiseFatal (s : State) : State := { s with fatal := true }

/-- A guest transaction the block does not claim: no effect on the block; a read is answered by the platform with a draw
(spec R81). -/
def unclaimed (dir : Dir) (w : Width) (port : BitVec 16) (s : State) : State :=
  match dir with
  | .rd => respond (.data (valueOf w (Config.unclaimedRead s.draws port w))) (countDraw s)
  | .wr => respond .notClaimed s

/-! ## Taking the next presented operation -/

/-- What the block finds when it turns to its input. -/
inductive Fetched where
  /-- The fatal flag is set: no agent has a step (spec R254). -/
  | dead
  /-- No operation is presented (log 3). -/
  | idle
  /-- An operation of the table; `s` has it taken from the input. -/
  | run (i : Instr) (s : State)
  /-- A transaction at a port the block does not decode. -/
  | foreign (dir : Dir) (w : Width) (port : BitVec 16) (s : State)
  /-- A reserved encoding. -/
  | reject (r : Refusal)

/-- The model refusal of a reserved encoding (spec R255). -/
def refusalOf : Reserved → Refusal
  | .interface => .reservedInterface
  | .bits => .reservedBits
  | .size => .reservedSize

/-- Takes the oldest presented operation and decodes it (spec R14, R80). The fatal flag is tested first (spec R254, R257). -/
def fetch (s : State) : Fetched :=
  if s.fatal then .dead
  else match s.inbox with
    | [] => .idle
    | p :: rest =>
      match decode p with
      | .instr i => .run i { s with inbox := rest }
      | .foreign dir w port => .foreign dir w port { s with inbox := rest }
      | .reserved r => .reject (refusalOf r)

/-- Presents a descriptor, with every operand zero or absent, as the very next operation. -/
def presentNext (d : BitVec 24) (s : State) : State := { s with inbox := { descriptor := d } :: s.inbox }

end Sys2Proof.Machine
end

