-- ==== Sys2Proof/Machine/Operands.lean ====
section
/-! DEFINITION. The operand forms: the fields of the latch (spec R22, R77), composing an address (spec R76), routing a
data-port access (spec R130), the sentinel (spec R138), the two pseudo-operations (spec R87). -/

namespace Sys2Proof.Machine

open Sys2Proof

/-- A decoded configuration address (spec R77). -/
structure Target where
  en : Bool
  bus : BitVec 8
  slot : BitVec 5
  fn : BitVec 3
  reg : BitVec 8
  deriving DecidableEq, Repr

/-- Decode of the latch at a data-port offset (spec R77): L[7:2] taken in place, its two low bits replaced by the offset. -/
def decodeLatch (l : BitVec 32) (off : BitVec 2) : Target :=
  { en := l.getLsbD 31
    bus := l.extractLsb' 16 8
    slot := l.extractLsb' 11 5
    fn := l.extractLsb' 8 3
    reg := (l.extractLsb' 0 8 &&& 0xFC) ||| off.setWidth 8 }

/-- `Addr(b, s, f, r)`, the value that targets a configuration address (spec R76). -/
def composeAddr (b : BitVec 8) (s : BitVec 5) (f : BitVec 3) (r : BitVec 8) : BitVec 32 :=
  0x80000000 ||| (b.setWidth 32 <<< 16) ||| (s.setWidth 32 <<< 11) ||| (f.setWidth 32 <<< 8) ||| ((r &&& 0xFC).setWidth 32)

/-- ONES(w), the "not present" sentinel of w bytes (spec R12, R138). -/
def ones (w : Width) : Value := valueOf w 0xFFFFFFFF

/-- Where a data-port access goes (spec R130). -/
inductive Routed where
  | absent
  | present (h : Handle) (reg : BitVec 8)
  deriving DecidableEq, Repr

/-- Route (spec R130): the function number is computed and not used (spec R51). -/
def route (s : State) (off : BitVec 2) : Routed :=
  let t := decodeLatch s.latch off
  if t.en = false then .absent
  else match lookup s t.bus.toNat t.slot.toNat with
    | none => .absent
    | some h => .present h t.reg

/-- The CD_RD row of a width (spec R79). -/
def cdRead (w : Width) (off : BitVec 2) : Instr := dataPortInstr .rd w off {}

/-- The CD_WR row of a width (spec R79). -/
def cdWrite (w : Width) (off : BitVec 2) (v : BitVec 32) : Instr := dataPortInstr .wr w off { value := v }

/-- The expansion of `CFG_RD<n> b, s, f, r` (spec R87). -/
def cfgRdExpansion (w : Width) (b : BitVec 8) (s : BitVec 5) (f : BitVec 3) (r : BitVec 8) : List Instr :=
  [.caWr32 (composeAddr b s f r), cdRead w (r.extractLsb' 0 2)]

/-- The expansion of `CFG_WR<n> b, s, f, r, v` (spec R87). -/
def cfgWrExpansion (w : Width) (b : BitVec 8) (s : BitVec 5) (f : BitVec 3) (r : BitVec 8) (v : BitVec 32) : List Instr :=
  [.caWr32 (composeAddr b s f r), cdWrite w (r.extractLsb' 0 2) v]

end Sys2Proof.Machine
end

