-- ==== Sys2Proof/Machine/Flags.lean ====
section
/-! DEFINITION. The status flags `init` and `fatal` (spec R24, R31): what they gate and the lifecycle they make (spec R266). -/

namespace Sys2Proof.Machine

open Sys2Proof

/-- While `fatal` is set no operation has a step (spec R254). -/
def whenAlive (s : State) (o : Host.Outcome State Fault Refusal) : Host.Outcome State Fault Refusal :=
  if s.fatal then .fault .afterFatal else o

/-- A guest transaction at a decoded port is claimed while `init` holds (spec R81, R100); otherwise it is not claimed. -/
def whenClaimed (dir : Dir) (w : Width) (port : BitVec 16) (s : State) (o : Host.Outcome State Fault Refusal) :
    Host.Outcome State Fault Refusal :=
  whenAlive s (if s.init then o else .next (unclaimed dir w port s))

/-- DoInit, the shared body of H_INIT and of the deferred initialization (spec R226). -/
def doInit (s : State) : State := if s.init then s else { s with init := true }

/-- The lifecycle states (spec R266). -/
inductive Lifecycle where
  | uninitialized
  | initialized
  | fatal
  deriving DecidableEq, Repr

/-- The lifecycle state a machine is in (spec R266). -/
def lifecycle (s : State) : Lifecycle :=
  if s.fatal then .fatal else if s.init then .initialized else .uninitialized

end Sys2Proof.Machine
end

