-- ==== Sys2Proof/Machine/AddressPort.lean ====
section
/-! DEFINITION. The six operations at port 0xCF8: the CONFIG_ADDRESS latch (spec R100 to R107). -/

namespace Sys2Proof.Machine

open Sys2Proof

/-- An 8-bit or 16-bit access to port 0xCF8, by NARROW_ADDR; `o` is what it does when it is claimed (spec R103 to R106). -/
def narrowAccess (dir : Dir) (w : Width) (s : State) (o : Host.Outcome State Fault Refusal) :
    Host.Outcome State Fault Refusal :=
  whenAlive s
    (match s.params.narrowAddr with
    | .refuse => .refused .narrowAddressAccess
    | .ignore => .next (unclaimed dir w addressPort s)
    | .zextReplace => whenClaimed dir w addressPort s o)

/-- Replaces the latch (spec R101, R103, R104). -/
def writeLatch (v : BitVec 32) (s : State) : State := respond .done { s with latch := v }

/-- Returns the low 8 * w bits of the latch (spec R102, R105, R106). -/
def readLatch (w : Width) (s : State) : State := respond (.data (valueOf w s.latch)) s

/-- CA_RD32 (spec R102). -/
def execCaRd32 (s : State) : Host.Outcome State Fault Refusal :=
  whenClaimed .rd .w4 addressPort s (.next (readLatch .w4 s))

/-- CA_WR32 (spec R101): any 32-bit pattern is stored, no device is accessed. -/
def execCaWr32 (v : BitVec 32) (s : State) : Host.Outcome State Fault Refusal :=
  whenClaimed .wr .w4 addressPort s (.next (writeLatch v s))

/-- CA_RD8 (spec R105). -/
def execCaRd8 (s : State) : Host.Outcome State Fault Refusal :=
  narrowAccess .rd .w1 s (.next (readLatch .w1 s))

/-- CA_RD16 (spec R106). -/
def execCaRd16 (s : State) : Host.Outcome State Fault Refusal :=
  narrowAccess .rd .w2 s (.next (readLatch .w2 s))

/-- CA_WR8 (spec R103). -/
def execCaWr8 (v : BitVec 8) (s : State) : Host.Outcome State Fault Refusal :=
  narrowAccess .wr .w1 s (.next (writeLatch (v.setWidth 32) s))

/-- CA_WR16 (spec R104). -/
def execCaWr16 (v : BitVec 16) (s : State) : Host.Outcome State Fault Refusal :=
  narrowAccess .wr .w2 s (.next (writeLatch (v.setWidth 32) s))

end Sys2Proof.Machine
end

