-- ==== Sys2Proof/Machine/ConfigSpace.lean ====
section
/-! DEFINITION. The two device-port operations and the dispatch to a device: the generic config read, the masked write
engine, and custom devices (spec R137, R160 to R169). -/

namespace Sys2Proof.Machine

open Sys2Proof

/-- `CfgRead(h, r, w)`: the value (spec R161). -/
def cfgRead (draw : Nat) (h : Handle) (d : DeviceRecord) (r : BitVec 8) (w : Width) : BitVec 32 :=
  cfgReadLanes draw h d r.toNat w.bytes

/-- `CfgWrite(h, r, w, v)`: the record after it (spec R162). -/
def cfgWrite (d : DeviceRecord) (r : BitVec 8) (w : Width) (v : BitVec 32) : DeviceRecord :=
  cfgWriteLanes v r.toNat w.bytes d

/-- A read of w bytes at r reaches an index above 255 (spec R161, R287). -/
def runsPastEnd (r : BitVec 8) (w : Width) : Bool := decide (r.toNat + w.bytes > 256)

/-- The record `crd_h(rec, r, w)` leaves (spec R168; log 7). -/
def customAfterRead (h : Handle) (d : DeviceRecord) (r : BitVec 8) (w : Width) : DeviceRecord :=
  { data := memoryOf (Config.customReadData h d.data d.mask r w)
    mask := memoryOf (Config.customReadMask h d.data d.mask r w) }

/-- The record `cwr_h(rec, r, w, v)` leaves (spec R168; log 7). -/
def customAfterWrite (h : Handle) (d : DeviceRecord) (r : BitVec 8) (w : Width) (v : BitVec 32) : DeviceRecord :=
  { data := memoryOf (Config.customWriteData h d.data d.mask r w v)
    mask := memoryOf (Config.customWriteMask h d.data d.mask r w v) }

/-- A generic read returns the value and leaves every record; reading past the end counts a draw (spec R161, R165). -/
def genericRead (h : Handle) (d : DeviceRecord) (r : BitVec 8) (w : Width) (s : State) : State :=
  respond (.data (valueOf w (cfgRead s.draws h d r w))) (if runsPastEnd r w then countDraw s else s)

/-- A custom read returns the device's own value and may change its own record (spec R168). -/
def customRead (h : Handle) (d : DeviceRecord) (r : BitVec 8) (w : Width) (s : State) : State :=
  respond (.data (valueOf w (Config.customReadValue h d.data d.mask r w))) (setDevice h (customAfterRead h d r w) s)

/-- `DevRead(h, r, w)` (spec R137); a handle that is not in DS is refused (spec R160). -/
def devRead (h : Handle) (r : BitVec 8) (w : Width) (s : State) : Host.Outcome State Fault Refusal :=
  match deviceOf s h with
  | none => .refused .noDevice
  | some d => .next (if isCustom s h then customRead h d r w s else genericRead h d r w s)

/-- `DevWrite(h, r, w, v)` (spec R137); a handle that is not in DS is refused (spec R160). -/
def devWrite (h : Handle) (r : BitVec 8) (w : Width) (v : BitVec 32) (s : State) : Host.Outcome State Fault Refusal :=
  match deviceOf s h with
  | none => .refused .noDevice
  | some d =>
    .next (respond .done
      (setDevice h (if isCustom s h then customAfterWrite h d r w v else cfgWrite d r w v) s))

/-- DEV_RD (spec R161): presented directly, it acts as the multiplexer's call (spec R73, R261; log 15). -/
def execDevRd (h : Handle) (w : Width) (reg : BitVec 8) (s : State) : Host.Outcome State Fault Refusal :=
  whenAlive s (devRead h reg w s)

/-- DEV_WR (spec R162): presented directly, it acts as the multiplexer's call (spec R73, R261; log 15). -/
def execDevWr (h : Handle) (w : Width) (reg : BitVec 8) (v : BitVec 32) (s : State) :
    Host.Outcome State Fault Refusal :=
  whenAlive s (devWrite h reg w (truncTo w v) s)

end Sys2Proof.Machine
end

