-- ==== Sys2Proof/Machine/DataPort.lean ====
section
/-! DEFINITION. The six operations at ports 0xCFC to 0xCFF: the config-space read/write multiplexer (spec R130 to R138). -/

namespace Sys2Proof.Machine

open Sys2Proof

/-- A data-port read: not claimed before initialization, the sentinel for an absent target, else the device's answer
(spec R131 to R133, R257). -/
def dataRead (w : Width) (off : BitVec 2) (s : State) : Host.Outcome State Fault Refusal :=
  whenClaimed .rd w (dataPort off) s
    (match route s off with
    | .absent => .next (respond (.data (ones w)) s)
    | .present h r => devRead h r w s)

/-- A data-port write: not claimed before initialization, a silent no-op for an absent target, else the device's write
(spec R134 to R136, R257). -/
def dataWrite (w : Width) (off : BitVec 2) (v : BitVec 32) (s : State) : Host.Outcome State Fault Refusal :=
  whenClaimed .wr w (dataPort off) s
    (match route s off with
    | .absent => .next (respond .done s)
    | .present h r => devWrite h r w v s)

/-- CD_RD8 (spec R131). -/
def execCdRd8 (off : BitVec 2) (s : State) : Host.Outcome State Fault Refusal := dataRead .w1 off s

/-- CD_RD16 (spec R132). -/
def execCdRd16 (off : BitVec 2) (s : State) : Host.Outcome State Fault Refusal := dataRead .w2 off s

/-- CD_RD32 (spec R133). -/
def execCdRd32 (off : BitVec 2) (s : State) : Host.Outcome State Fault Refusal := dataRead .w4 off s

/-- CD_WR8 (spec R134). -/
def execCdWr8 (off : BitVec 2) (v : BitVec 8) (s : State) : Host.Outcome State Fault Refusal :=
  dataWrite .w1 off (v.setWidth 32) s

/-- CD_WR16 (spec R135). -/
def execCdWr16 (off : BitVec 2) (v : BitVec 16) (s : State) : Host.Outcome State Fault Refusal :=
  dataWrite .w2 off (v.setWidth 32) s

/-- CD_WR32 (spec R136). -/
def execCdWr32 (off : BitVec 2) (v : BitVec 32) (s : State) : Host.Outcome State Fault Refusal :=
  dataWrite .w4 off v s

end Sys2Proof.Machine
end

