-- ==== Sys2Proof/Machine/Lifecycle.lean ====
section
/-! DEFINITION. The lifecycle and device-store host operations (spec R220 to R227). -/

namespace Sys2Proof.Machine

open Sys2Proof

/-- H_INIT (spec R220). -/
def execHInit (s : State) : Host.Outcome State Fault Refusal :=
  whenAlive s (.next (respond .done (doInit s)))

/-- The state after shutdown (spec R221): registered records are destroyed, host-owned ones kept. -/
def shutDown (s : State) : State :=
  { s with
    init := false
    devices := s.devices.filter fun e => !registered s e.1
    table := []
    latch := 0 }

/-- H_SHUTDOWN (spec R221). -/
def execHShutdown (s : State) : Host.Outcome State Fault Refusal :=
  whenAlive s (.next (respond .done (shutDown s)))

/-- H_IS_INIT (spec R222). -/
def execHIsInit (s : State) : Host.Outcome State Fault Refusal :=
  whenAlive s (.next (respond (.bool s.init) s))

/-- The handle the host's allocator proposes: the next of `handleSupply`, or a free value (spec R223, U12; log 6). -/
def proposedHandle (s : State) : Handle :=
  match s.handleSupply with
  | h :: _ => h
  | [] => Config.proposedHandle s.draws

/-- A handle that is not null and was never returned before: the proposed one if it is such, else one above every handle
returned so far (spec R223; log 6). -/
def freshHandle (s : State) : Handle :=
  if proposedHandle s ≠ nullHandle ∧ proposedHandle s ∉ s.issued then proposedHandle s
  else s.issued.foldr max 0 + 1

/-- Records that a handle has been returned, and that the allocator was asked (log 6). -/
def issueHandle (h : Handle) (s : State) : State :=
  { s with issued := h :: s.issued, handleSupply := s.handleSupply.tail, draws := s.draws + 1 }

/-- H_CREATE (spec R223): a host-owned record with the construction defaults of R167. -/
def execHCreate (vendor device : BitVec 16) (s : State) : Host.Outcome State Fault Refusal :=
  whenAlive s
    (.next (respond (.handle (freshHandle s))
      (issueHandle (freshHandle s) (setDevice (freshHandle s) (constructed vendor device) s))))

/-- The record after H_DEVSET: one data byte and its mask byte, no mask applied (spec R224, R169). -/
def devset (d : DeviceRecord) (i : BitVec 8) (data mask : Byte) : DeviceRecord :=
  { data := writeByte d.data i.toNat data, mask := writeByte d.mask i.toNat mask }

/-- H_DEVSET (spec R224). -/
def execHDevset (h : Handle) (i data mask : BitVec 8) (s : State) : Host.Outcome State Fault Refusal :=
  whenAlive s
    (match deviceOf s h with
    | none => .refused .unknownDevice
    | some d => .next (respond .done (setDevice h (devset d i data mask) s)))

/-- H_DESTROY (spec R225). -/
def execHDestroy (h : Handle) (s : State) : Host.Outcome State Fault Refusal :=
  whenAlive s
    (if deviceOf s h = none then .refused .unknownDevice
    else if registered s h then .refused .destroyRegistered
    else .next (respond .done (removeDevice h s)))

end Sys2Proof.Machine
end

