-- ==== Sys2Proof/Machine/Registry.lean ====
section
/-! DEFINITION. The two host operations that write the registry table (spec R191 to R198). -/

namespace Sys2Proof.Machine

open Sys2Proof

/-- The search of PlaceAuto from the cell (b, x), over at most `fuel` cells (spec R192, R198; slot 0 first, C1; "last slot of
the bus", C7): the cell it stops at, or none. -/
def autoSearch (s : State) (rb rs : Option Nat) : Nat → Nat → Nat → Option (Nat × Nat)
  | 0, _, _ => none
  | fuel + 1, b, x =>
    if cellAt s b x = none then some (b, x)
    else if rs.isSome ∨ x = s.params.nslot - 1 then
      if b + 1 ≥ s.params.nbus ∨ rb.isSome then none else autoSearch s rb rs fuel (b + 1) (rs.getD 0)
    else autoSearch s rb rs fuel b (x + 1)

/-- The cell PlaceAuto takes; the search ends after at most NBUS x NSLOT cells (spec R192, R198). -/
def autoCell (s : State) (rb rs : Option Nat) : Option (Nat × Nat) :=
  autoSearch s rb rs (s.params.nbus * s.params.nslot) (rb.getD 0) (rs.getD 0)

/-- Stores h at a cell and returns its slot (spec R194). -/
def placeAt (h : Handle) (b x : Nat) (s : State) : State := respond (.registered x) (fillCell b x h s)

/-- A registration that fails returns a code and leaves the table (spec R252). -/
def registerFails (c : FailCode) (s : State) : State := respond (.failed c) s

/-- PlaceAuto (spec R192). -/
def placeAuto (h : Handle) (rb rs : Option Nat) (s : State) : State :=
  match autoCell s rb rs with
  | some (b, x) => placeAt h b x s
  | none => registerFails .noFreeSlot s

/-- PlaceExplicit (spec R193). A collision is the fatal condition and leaves everything else as it was before the operation,
which is the state `before` (spec R253; log 13). -/
def placeExplicit (h : Handle) (b x : Nat) (before s : State) : State :=
  if cellAt s b x = none then placeAt h b x s else raiseFatal before

/-- An explicit index outside the table (spec R191). -/
def beyondTable (size : Nat) : Option Nat → Bool
  | none => false
  | some n => decide (n ≥ size)

/-- The placement of a handle that may be registered (spec R191). -/
def place (h : Handle) (rb rs : Option Nat) (before s : State) : State :=
  match rb, rs with
  | some b, some x => placeExplicit h b x before s
  | some b, none => placeAuto h (some b) none s
  | none, some x => placeAuto h none (some x) s
  | none, none => placeAuto h none none s

/-- H_REGISTER (spec R191), its tests in the order of R258. -/
def execHRegister (h : Handle) (rb rs : Option Nat) (s : State) : Host.Outcome State Fault Refusal :=
  whenAlive s
    (if h = nullHandle then .next (registerFails .invalidArgument (doInit s))
    else if deviceOf s h = none then .refused .unknownDevice
    else if registered s h then .refused .alreadyRegistered
    else if beyondTable s.params.nbus rb then .next (registerFails .outOfBounds (doInit s))
    else if beyondTable s.params.nslot rs then .next (registerFails .outOfBounds (doInit s))
    else .next (place h rb rs s (doInit s)))

/-- H_UNREGISTER (spec R196): the record stays in DS. -/
def execHUnregister (h : Handle) (s : State) : Host.Outcome State Fault Refusal :=
  whenAlive s
    (match cellOf s h with
    | some key => .next (respond (.bool true) (clearCell key s))
    | none => .next (respond (.bool false) s))

end Sys2Proof.Machine
end

