-- ==== Sys2Proof/Machine/Dispatch.lean ====
section
/-! DEFINITION. One arm per operation, each a direct call of its meaning. -/

namespace Sys2Proof.Machine

open Sys2Proof

def exec (i : Instr) (s : State) : Host.Outcome State Fault Refusal :=
  match i with
  -- the address port (spec R101 to R106)
  | .caRd32 => Sys2Proof.Machine.execCaRd32 s
  | .caWr32 v => Sys2Proof.Machine.execCaWr32 v s
  | .caRd8 => Sys2Proof.Machine.execCaRd8 s
  | .caRd16 => Sys2Proof.Machine.execCaRd16 s
  | .caWr8 v => Sys2Proof.Machine.execCaWr8 v s
  | .caWr16 v => Sys2Proof.Machine.execCaWr16 v s
  -- the data ports (spec R131 to R136)
  | .cdRd8 off => Sys2Proof.Machine.execCdRd8 off s
  | .cdRd16 off => Sys2Proof.Machine.execCdRd16 off s
  | .cdRd32 off => Sys2Proof.Machine.execCdRd32 off s
  | .cdWr8 off v => Sys2Proof.Machine.execCdWr8 off v s
  | .cdWr16 off v => Sys2Proof.Machine.execCdWr16 off v s
  | .cdWr32 off v => Sys2Proof.Machine.execCdWr32 off v s
  -- the device port (spec R161, R162)
  | .devRd h w reg => Sys2Proof.Machine.execDevRd h w reg s
  | .devWr h w reg v => Sys2Proof.Machine.execDevWr h w reg v s
  -- the host interface (spec R191, R196, R220 to R225)
  | .hInit => Sys2Proof.Machine.execHInit s
  | .hShutdown => Sys2Proof.Machine.execHShutdown s
  | .hRegister h bus slot => Sys2Proof.Machine.execHRegister h bus slot s
  | .hUnregister h => Sys2Proof.Machine.execHUnregister h s
  | .hIsInit => Sys2Proof.Machine.execHIsInit s
  | .hCreate vendor device => Sys2Proof.Machine.execHCreate vendor device s
  | .hDevset h index data mask => Sys2Proof.Machine.execHDevset h index data mask s
  | .hDestroy h => Sys2Proof.Machine.execHDestroy h s

end Sys2Proof.Machine
end

