-- ==== Sys2Proof/Machine/Step.lean ====
section
/-! DEFINITION. One step: the oldest presented operation, whole (spec R14, R58, R63). -/

namespace Sys2Proof.Machine

open Sys2Proof

/-- One step of the block. With nothing presented the block waits (log 3). -/
def step (s : State) : Host.Outcome State Fault Refusal :=
  match fetch s with
  | .dead => .fault .afterFatal
  | .idle => .next s
  | .run i s' => exec i s'
  | .foreign dir w port s' => .next (unclaimed dir w port s')
  | .reject r => .refused r

/-- `s` with the descriptor whose bits are `w` presented as its very next operation, with every operand zero or absent. -/
def State.withFetchWord (s : State) (nbits w : Nat) : State := presentNext (BitVec.ofNat 24 (w % 2 ^ nbits)) s

end Sys2Proof.Machine
end

