-- ==== Sys2Proof/Safety.lean ====
section
/-! DEFINITION. What the claims speak of: the invariant of the machine (spec R26, R27, R223, R227), which operations are
the guest's (spec R261), absent and present targets (spec R130, R251), and what a frame leaves unchanged. -/

namespace Sys2Proof.Machine

open Sys2Proof

/-- Both halves of a record are in canonical form (log 17). -/
abbrev DeviceRecord.wf (d : DeviceRecord) : Prop := Memory.wf d.data ∧ Memory.wf d.mask

/-- The invariant of the machine. -/
structure State.Inv (s : State) : Prop where
  /-- The table is in canonical form (log 18). -/
  tableSorted : mapSorted s.table
  /-- The device store is in canonical form (log 18). -/
  devicesSorted : mapSorted s.devices
  /-- Every record is in canonical form (log 17). -/
  recordsWf : ∀ e ∈ s.devices, e.2.wf
  /-- Every occupied cell is one of the NBUS x NSLOT cells (spec R25). -/
  cellsInTable : ∀ e ∈ s.table, ∃ b x, b < s.params.nbus ∧ x < s.params.nslot ∧ e.1 = cellKey b x
  /-- Every occupied cell holds a live device (spec R26). -/
  cellsLive : ∀ e ∈ s.table, deviceOf s e.2 ≠ none
  /-- No two cells hold the same device (spec R26). -/
  cellsDistinct : (s.table.map Prod.snd).Nodup
  /-- Every device in DS came from H_CREATE (spec R223, R27). -/
  devicesIssued : ∀ e ∈ s.devices, e.1 ∈ s.issued
  /-- `null` is never the handle of a device (spec R11). -/
  nullNotIssued : nullHandle ∉ s.issued
  /-- No handle was returned twice (spec R223). -/
  issuedDistinct : s.issued.Nodup
  /-- An uninitialized block has an empty table (spec R227). -/
  emptyBeforeInit : s.init = false → s.table = []

/-- The port access a guest operation is: its direction, width and port; none for the other operations (spec R261, R71). -/
def guestAccess : Instr → Option (Dir × Width × BitVec 16)
  | .caRd32 => some (.rd, .w4, addressPort)
  | .caWr32 _ => some (.wr, .w4, addressPort)
  | .caRd8 => some (.rd, .w1, addressPort)
  | .caRd16 => some (.rd, .w2, addressPort)
  | .caWr8 _ => some (.wr, .w1, addressPort)
  | .caWr16 _ => some (.wr, .w2, addressPort)
  | .cdRd8 off => some (.rd, .w1, dataPort off)
  | .cdRd16 off => some (.rd, .w2, dataPort off)
  | .cdRd32 off => some (.rd, .w4, dataPort off)
  | .cdWr8 off _ => some (.wr, .w1, dataPort off)
  | .cdWr16 off _ => some (.wr, .w2, dataPort off)
  | .cdWr32 off _ => some (.wr, .w4, dataPort off)
  | .devRd _ _ _ | .devWr _ _ _ _ => none
  | .hInit | .hShutdown | .hRegister _ _ _ | .hUnregister _ | .hIsInit => none
  | .hCreate _ _ | .hDevset _ _ _ _ | .hDestroy _ => none

/-- The guest operations are the CA_* and CD_* transactions (spec R261). -/
def isGuest (i : Instr) : Bool := (guestAccess i).isSome

/-- An 8-bit or 16-bit access to port 0xCF8 (spec R7). -/
def isNarrow : Instr → Bool
  | .caRd8 | .caRd16 | .caWr8 _ | .caWr16 _ => true
  | .caRd32 | .caWr32 _ | .cdRd8 _ | .cdRd16 _ | .cdRd32 _ | .cdWr8 _ _ | .cdWr16 _ _ | .cdWr32 _ _ => false
  | .devRd _ _ _ | .devWr _ _ _ _ => false
  | .hInit | .hShutdown | .hRegister _ _ _ | .hUnregister _ | .hIsInit => false
  | .hCreate _ _ | .hDevset _ _ _ _ | .hDestroy _ => false

/-- The absent-device condition of the latched address (spec R251): EN = 0, a bus or slot outside the table, or an empty
cell. -/
def targetAbsent (s : State) : Prop :=
  s.latch.getLsbD 31 = false ∨ s.params.nbus ≤ (s.latch.extractLsb' 16 8).toNat ∨
    s.params.nslot ≤ (s.latch.extractLsb' 11 5).toNat ∨
    cellAt s (s.latch.extractLsb' 16 8).toNat (s.latch.extractLsb' 11 5).toNat = none

/-- The latched address reaches the device h (spec R130). -/
def targetIs (s : State) (h : Handle) : Prop :=
  s.latch.getLsbD 31 = true ∧ (s.latch.extractLsb' 16 8).toNat < s.params.nbus ∧
    (s.latch.extractLsb' 11 5).toNat < s.params.nslot ∧
    cellAt s (s.latch.extractLsb' 16 8).toNat (s.latch.extractLsb' 11 5).toNat = some h

/-- The register index of a data-port access at offset `off`: (L & 0xFC) | off (spec R54, R77). -/
def registerIndex (l : BitVec 32) (off : BitVec 2) : Nat := (l &&& 0xFC).toNat + off.toNat

/-- `t` is `s` with one more result, the record of h changed to `d`, and nothing else changed. -/
def OnlyDevice (s t : State) (h : Handle) (d : DeviceRecord) (r : Response) : Prop :=
  t = { s with devices := t.devices, outbox := r :: s.outbox } ∧ deviceOf t h = some d ∧
    ∀ h', h' ≠ h → deviceOf t h' = deviceOf s h'

/-- `t` is `s` with the block initialized, one more result, the cell (b, x) holding h, and nothing else changed. -/
def OnlyCellFilled (s t : State) (b x : Nat) (h : Handle) (r : Response) : Prop :=
  t = { s with init := true, table := t.table, outbox := r :: s.outbox } ∧ cellAt t b x = some h ∧
    ∀ b' x', x' < s.params.nslot → (b' ≠ b ∨ x' ≠ x) → cellAt t b' x' = cellAt s b' x'

/-- Byte i of a masked write of n bytes of `v` at index r over the record `d` (spec R162): inside the range the bits whose
mask bit is 1 come from the value, outside it the byte is the old one. -/
def maskedByte (d : DeviceRecord) (r n : Nat) (v : BitVec 32) (i : Nat) : Byte :=
  if r ≤ i ∧ i < r + n then
    (readByte d.data i &&& ~~~ readByte d.mask i) ||| ((v >>> (8 * (i - r))).setWidth 8 &&& readByte d.mask i)
  else readByte d.data i

/-- Several operations, one after the other with nothing between them (spec R87); it stops where one of them stops. -/
def execAll : List Instr → State → Host.Outcome State Fault Refusal
  | [], s => .next s
  | i :: rest, s =>
    match exec i s with
    | .next t => execAll rest t
    | .fault f => .fault f
    | .refused r => .refused r

end Sys2Proof.Machine
end

