-- ==== Sys2Proof/Certificates/Slice0/Obligations.lean ====
section
/-! DEFINITION. The statements for the provers. Each docstring names the rule of the spec it rests on. -/

open Sys2Proof Sys2Proof.Machine

/-! ## Encoding (spec 30_encoding) -/

/-- Decoding the encoding of a well-formed operation gives it back, with every operand at every value (R70 to R75, R79; the
packing is the spec's own choice D1, the operand record is the model's, log 16). -/
def Obligations.DecodeOfEncodeIsTheOperation : Prop :=
  ∀ i : Instr, i.wellFormed = true → decode (encode i) = .instr i

/-- The decoder drops no bit of a descriptor: an operation it reads is well formed and has that one descriptor (R71 to R75,
R80; D1). -/
def Obligations.DecodedOperationHasThatDescriptor : Prop :=
  ∀ (p : Presented) (i : Instr), decode p = .instr i →
    i.wellFormed = true ∧ (encode i).descriptor = p.descriptor

/-- No descriptor selects two rows of the opcode table (R79; D1). -/
def Obligations.OpcodeRowsAreDisjoint : Prop :=
  ∀ (i j : Instr) (d : BitVec 24), (rowOf i).selects d → (rowOf j).selects d → rowOf i = rowOf j

/-- The decoder reads an operation exactly where the opcode table has a row for it, the size 11 of the device rows aside
(R79, R80; D1, D22). -/
def Obligations.DecoderFollowsTheOpcodeTable : Prop :=
  (∀ (p : Presented) (i : Instr), decode p = .instr i → (rowOf i).selects p.descriptor) ∧
  (∀ (p : Presented) (j : Instr), (rowOf j).selects p.descriptor →
    ¬(p.descriptor.extractLsb' 22 2 = 1 ∧ p.descriptor.extractLsb' 17 2 = 3) →
    ∃ i, decode p = .instr i ∧ rowOf i = rowOf j)

/-- The reserved encodings are refused by name, and the step refuses them (R80, R82, R255; D22). Where a format D
descriptor has a reserved size and a reserved bit, the size is named: the model's choice, log 14. -/
def Obligations.ReservedDescriptorsAreRefused : Prop :=
  ∀ (s : State) (p : Presented) (rest : List Presented), s.fatal = false → s.inbox = p :: rest →
    (p.descriptor.extractLsb' 22 2 = 3 → step s = .refused .reservedInterface) ∧
    (p.descriptor.extractLsb' 22 2 ≠ 3 → p.descriptor.extractLsb' 19 3 ≠ 0 → step s = .refused .reservedBits) ∧
    (p.descriptor.extractLsb' 22 2 = 2 → p.descriptor.extractLsb' 19 3 = 0 → p.descriptor.extractLsb' 0 16 ≠ 0 →
      step s = .refused .reservedBits) ∧
    ((p.descriptor.extractLsb' 22 2 = 0 ∨ p.descriptor.extractLsb' 22 2 = 1) → p.descriptor.extractLsb' 19 3 = 0 →
      p.descriptor.extractLsb' 17 2 = 3 → step s = .refused .reservedSize) ∧
    (p.descriptor.extractLsb' 22 2 = 1 → p.descriptor.extractLsb' 19 3 = 0 → p.descriptor.extractLsb' 17 2 ≠ 3 →
      p.descriptor.extractLsb' 8 8 ≠ 0 → step s = .refused .reservedBits)

/-- A few descriptors written out from the formats decode to what they stand for: one of each family, a foreign port and a
reserved size (R71 to R74, R79, R80; D1). -/
def Obligations.SpecWordsDecode : Prop :=
  decode ⟨0x050CF8, { value := 0x80000804 }⟩ = .instr (.caWr32 0x80000804) ∧
  decode ⟨0x000CFD, {}⟩ = .instr (.cdRd8 1) ∧
  decode ⟨0x030CFE, { value := 0x5566 }⟩ = .instr (.cdWr16 2 0x5566) ∧
  decode ⟨0x4500FE, { handle := 7, value := 0x11223344 }⟩ = .instr (.devWr 7 .w4 0xFE 0x11223344) ∧
  decode ⟨0x820000, { handle := 7, bus := some 1, slot := some 3 }⟩ = .instr (.hRegister 7 (some 1) (some 3)) ∧
  decode ⟨0x870000, { handle := 7 }⟩ = .instr (.hDestroy 7) ∧
  decode ⟨0x040CFA, {}⟩ = .foreign .rd .w4 0xCFA ∧
  decode ⟨0x070CF8, {}⟩ = .reserved .size

/-! ## The step -/

/-- A step at which the oldest presented operation decodes to i is exec of i, with that operation taken from the input
(R14, R58, R63; the input queue is the model's, log 3). -/
def Obligations.StepRunsTheDecodedOperation : Prop :=
  ∀ (s : State) (p : Presented) (rest : List Presented) (i : Instr), s.fatal = false → s.inbox = p :: rest →
    decode p = .instr i → step s = exec i { s with inbox := rest }

/-- A transaction that starts at a port the block does not decode, 0xCF9 to 0xCFB among them, is not claimed: the block's
state stays, a read gets the platform's value, which is free (R61, R80, R81; D4, D5; log 5, 10). -/
def Obligations.StepDoesNotClaimForeignPorts : Prop :=
  ∀ (s : State) (port : BitVec 16) (w : Width) (o : Operands) (rest : List Presented), s.fatal = false →
    port ≠ 0xCF8 → (port.toNat < 0xCFC ∨ 0xCFF < port.toNat) →
    (s.inbox = ⟨guestDescriptor .rd w port, o⟩ :: rest →
      step s = .next { s with
        inbox := rest
        draws := s.draws + 1
        outbox := .data (valueOf w (Config.unclaimedRead s.draws port w)) :: s.outbox }) ∧
    (s.inbox = ⟨guestDescriptor .wr w port, o⟩ :: rest →
      step s = .next { s with inbox := rest, outbox := .notClaimed :: s.outbox })

/-- While `fatal` is set no operation of any agent has a step (R254; D23). -/
def Obligations.NothingRunsAfterFatal : Prop :=
  ∀ s : State, s.fatal = true → step s = .fault .afterFatal ∧ ∀ i, exec i s = .fault .afterFatal

/-- With nothing presented the block waits. The model's own choice, log 3: R34 says only that the next operation is
whatever is presented next. -/
def Obligations.StepWaitsWithNothingPresented : Prop :=
  ∀ s : State, s.fatal = false → s.inbox = [] → step s = .next s

/-- No step changes the parameters, takes back a result or forgets a handle (00_scope R5 to R9, 42_config_space R165,
44_lifecycle R223; the fields are the model's, log 1, 4, 5, 6). -/
def Obligations.StepKeepsParametersAndHistory : Prop :=
  ∀ s t : State, step s = .next t →
    t.params = s.params ∧ s.outbox <:+ t.outbox ∧ s.issued <:+ t.issued ∧ s.draws ≤ t.draws

/-! ## The address port (spec 40_address_port) -/

/-- CA_WR32, whose descriptor is 0x050CF8, replaces the whole latch by any 32-bit pattern and touches nothing else; before
initialization it is not claimed (R101). -/
def Obligations.CaWr32ReplacesTheLatch : Prop :=
  ∀ (s : State) (v : BitVec 32), s.fatal = false →
    decode ⟨0x050CF8, { value := v }⟩ = .instr (.caWr32 v) ∧
    (s.init = true → exec (.caWr32 v) s = .next { s with latch := v, outbox := .done :: s.outbox }) ∧
    (s.init = false → exec (.caWr32 v) s = .next { s with outbox := .notClaimed :: s.outbox })

/-- CA_RD32 returns the latch verbatim; before initialization it is not claimed and the value is free (R102; that it reads 0
after reset is the spec's own choice D8, log 8; the draw is log 5). -/
def Obligations.CaRd32ReturnsTheLatch : Prop :=
  ∀ s : State, s.fatal = false →
    (s.init = true → exec .caRd32 s = .next { s with outbox := .data (.b32 s.latch) :: s.outbox }) ∧
    (s.init = false → exec .caRd32 s = .next { s with
      draws := s.draws + 1
      outbox := .data (.b32 (Config.unclaimedRead s.draws 0xCF8 .w4)) :: s.outbox })

/-- CA_WR8 and CA_WR16 by NARROW_ADDR: refused, not claimed, or the zero-extended value replaces the latch (R7, R103, R104;
D3; the refusal holds whether or not the block is initialized, log 12). -/
def Obligations.NarrowAddressWritesFollowTheParameter : Prop :=
  ∀ (s : State) (v : BitVec 8) (u : BitVec 16), s.fatal = false →
    (s.params.narrowAddr = .refuse →
      exec (.caWr8 v) s = .refused .narrowAddressAccess ∧ exec (.caWr16 u) s = .refused .narrowAddressAccess) ∧
    (s.params.narrowAddr = .ignore →
      exec (.caWr8 v) s = .next { s with outbox := .notClaimed :: s.outbox } ∧
      exec (.caWr16 u) s = .next { s with outbox := .notClaimed :: s.outbox }) ∧
    (s.params.narrowAddr = .zextReplace → s.init = true →
      exec (.caWr8 v) s = .next { s with latch := v.setWidth 32, outbox := .done :: s.outbox } ∧
      exec (.caWr16 u) s = .next { s with latch := u.setWidth 32, outbox := .done :: s.outbox }) ∧
    (s.params.narrowAddr = .zextReplace → s.init = false →
      exec (.caWr8 v) s = .next { s with outbox := .notClaimed :: s.outbox } ∧
      exec (.caWr16 u) s = .next { s with outbox := .notClaimed :: s.outbox })

/-- CA_RD8 and CA_RD16 by NARROW_ADDR: refused, not claimed with a free value, or the low byte or two of the latch (R7,
R105, R106; D3; log 5, 12). -/
def Obligations.NarrowAddressReadsFollowTheParameter : Prop :=
  ∀ s : State, s.fatal = false →
    (s.params.narrowAddr = .refuse →
      exec .caRd8 s = .refused .narrowAddressAccess ∧ exec .caRd16 s = .refused .narrowAddressAccess) ∧
    (s.params.narrowAddr = .ignore ∨ s.params.narrowAddr = .zextReplace ∧ s.init = false →
      exec .caRd8 s = .next { s with
        draws := s.draws + 1
        outbox := .data (valueOf .w1 (Config.unclaimedRead s.draws 0xCF8 .w1)) :: s.outbox } ∧
      exec .caRd16 s = .next { s with
        draws := s.draws + 1
        outbox := .data (valueOf .w2 (Config.unclaimedRead s.draws 0xCF8 .w2)) :: s.outbox }) ∧
    (s.params.narrowAddr = .zextReplace → s.init = true →
      exec .caRd8 s = .next { s with outbox := .data (.b8 (s.latch.setWidth 8)) :: s.outbox } ∧
      exec .caRd16 s = .next { s with outbox := .data (.b16 (s.latch.setWidth 16)) :: s.outbox })

/-- Before initialization no guest transaction is claimed: nothing of the block changes, and a read gets a free value, not
the sentinel (R81, R100, R131 to R136, R257, R283; D4, D5). A narrow access under Refuse is refused instead (log 12). -/
def Obligations.GuestIsNotClaimedBeforeInit : Prop :=
  ∀ (s : State) (i : Instr) (w : Width) (port : BitVec 16), s.fatal = false → s.init = false →
    (isNarrow i = true → s.params.narrowAddr ≠ .refuse) →
    (guestAccess i = some (.rd, w, port) →
      exec i s = .next { s with
        draws := s.draws + 1
        outbox := .data (valueOf w (Config.unclaimedRead s.draws port w)) :: s.outbox }) ∧
    (guestAccess i = some (.wr, w, port) →
      exec i s = .next { s with outbox := .notClaimed :: s.outbox })

/-- The only operations that change the latch are CA_WR32, H_SHUTDOWN and, under ZextReplace, CA_WR8 and CA_WR16 (R21,
R23). -/
def Obligations.LatchPersistsUntilOverwritten : Prop :=
  ∀ (i : Instr) (s t : State), exec i s = .next t → (∀ v, i ≠ .caWr32 v) → i ≠ .hShutdown →
    ((∀ v, i ≠ .caWr8 v) ∧ (∀ v, i ≠ .caWr16 v) ∨ s.params.narrowAddr ≠ .zextReplace) →
    t.latch = s.latch

/-! ## The latch's fields and the data ports (spec 30_encoding R76, R77; 41_data_port) -/

/-- Decode takes EN, bus, slot and function from their fields, and the register index is (L & 0xFC) | off, which is also
(L & 0xFC) + off; the bits 30:24 and 1:0 are not read (R77). -/
def Obligations.DecodeTakesTheLatchFields : Prop :=
  ∀ (l l' : BitVec 32) (off : BitVec 2),
    (decodeLatch l off).en = decide (2 ^ 31 ≤ l.toNat) ∧
    (decodeLatch l off).bus.toNat = l.toNat / 2 ^ 16 % 2 ^ 8 ∧
    (decodeLatch l off).slot.toNat = l.toNat / 2 ^ 11 % 2 ^ 5 ∧
    (decodeLatch l off).fn.toNat = l.toNat / 2 ^ 8 % 2 ^ 3 ∧
    (decodeLatch l off).reg.setWidth 32 = (l &&& 0xFC) ||| off.setWidth 32 ∧
    (decodeLatch l off).reg.toNat = (l &&& 0xFC).toNat + off.toNat ∧
    (l &&& 0x80FFFFFC = l' &&& 0x80FFFFFC → decodeLatch l off = decodeLatch l' off)

/-- The composed address decodes to the bus, slot, function and register it was composed from, at the data port of the
register's two low bits (R76, R77, R87). -/
def Obligations.ComposedAddressDecodesBack : Prop :=
  ∀ (b : BitVec 8) (x : BitVec 5) (f : BitVec 3) (r : BitVec 8),
    decodeLatch (composeAddr b x f r) (r.extractLsb' 0 2) = { en := true, bus := b, slot := x, fn := f, reg := r }

/-- A claimed read of an absent target returns all ones in its width: EN = 0, a bus or slot outside the table, or an empty
cell (R138). -/
def Obligations.AbsentTargetReadsAllOnes : Prop :=
  ∀ (s : State) (off : BitVec 2), s.fatal = false → s.init = true → targetAbsent s →
    exec (.cdRd8 off) s = .next { s with outbox := .data (.b8 0xFF) :: s.outbox } ∧
    exec (.cdRd16 off) s = .next { s with outbox := .data (.b16 0xFFFF) :: s.outbox } ∧
    exec (.cdRd32 off) s = .next { s with outbox := .data (.b32 0xFFFFFFFF) :: s.outbox }

/-- A claimed write to an absent target is a silent no-op (R130, R134 to R136, R251; 90_conflicts C2). -/
def Obligations.AbsentTargetWritesNothing : Prop :=
  ∀ (s : State) (off : BitVec 2) (v : BitVec 8) (u : BitVec 16) (x : BitVec 32),
    s.fatal = false → s.init = true → targetAbsent s →
    exec (.cdWr8 off v) s = .next { s with outbox := .done :: s.outbox } ∧
    exec (.cdWr16 off u) s = .next { s with outbox := .done :: s.outbox } ∧
    exec (.cdWr32 off x) s = .next { s with outbox := .done :: s.outbox }

/-- A claimed read that reaches a generic device returns its stored bytes from (L & 0xFC) + off on, the lowest index in the
low byte, unmasked; a byte at an index above 255 is a free value (`cfgByte`), and no byte of any device changes (R131 to
R133, R137, R52, R54, R55, R161, R165, R166; D2, D7; log 5, 9). -/
def Obligations.DataPortReadsReturnStoredBytes : Prop :=
  ∀ (s : State) (off : BitVec 2) (h : Handle) (d : DeviceRecord) (r : Nat),
    s.fatal = false → s.init = true → targetIs s h → deviceOf s h = some d → isCustom s h = false →
    r = registerIndex s.latch off →
    exec (.cdRd8 off) s = .next { s with outbox := .data (.b8 (readByte d.data r)) :: s.outbox } ∧
    exec (.cdRd16 off) s = .next { s with
      draws := if r + 2 ≤ 256 then s.draws else s.draws + 1
      outbox := .data (.b16 (cfgByte s.draws h d (r + 1) ++ cfgByte s.draws h d r)) :: s.outbox } ∧
    exec (.cdRd32 off) s = .next { s with
      draws := if r + 4 ≤ 256 then s.draws else s.draws + 1
      outbox := .data (.b32 (cfgByte s.draws h d (r + 3) ++ cfgByte s.draws h d (r + 2) ++
        cfgByte s.draws h d (r + 1) ++ cfgByte s.draws h d r)) :: s.outbox }

/-- A claimed write that reaches a generic device changes the bytes from (L & 0xFC) + off on that lie below 256, each bit
only where its mask bit is 1; every other byte, every mask, every other device and everything else stays (R134 to R137, R52,
R54, R55, R162, R164; D2; log 9). -/
def Obligations.DataPortWritesObeyTheMask : Prop :=
  ∀ (s : State) (off : BitVec 2) (h : Handle) (d : DeviceRecord) (r : Nat) (v : BitVec 8) (u : BitVec 16) (x : BitVec 32),
    s.fatal = false → s.init = true → targetIs s h → deviceOf s h = some d → isCustom s h = false →
    r = registerIndex s.latch off →
    (∃ t d', exec (.cdWr8 off v) s = .next t ∧ OnlyDevice s t h d' .done ∧ d'.mask = d.mask ∧
      ∀ i ≤ 255, readByte d'.data i = maskedByte d r 1 (v.setWidth 32) i) ∧
    (∃ t d', exec (.cdWr16 off u) s = .next t ∧ OnlyDevice s t h d' .done ∧ d'.mask = d.mask ∧
      ∀ i ≤ 255, readByte d'.data i = maskedByte d r 2 (u.setWidth 32) i) ∧
    (∃ t d', exec (.cdWr32 off x) s = .next t ∧ OnlyDevice s t h d' .done ∧ d'.mask = d.mask ∧
      ∀ i ≤ 255, readByte d'.data i = maskedByte d r 4 x i)

/-- Neither the function number nor the unassigned latch bits select anything: a data-port operation does the same under
every latch that agrees on EN, bus, slot and register (R51; R77, R83, R288). -/
def Obligations.FunctionNumberSelectsNothing : Prop :=
  ∀ (s t : State) (l : BitVec 32) (w : Width) (off : BitVec 2) (v : BitVec 32),
    l &&& 0x80FFF8FC = s.latch &&& 0x80FFF8FC →
    (exec (cdRead w off) s = .next t → exec (cdRead w off) { s with latch := l } = .next { t with latch := l }) ∧
    (exec (cdWrite w off v) s = .next t →
      exec (cdWrite w off v) { s with latch := l } = .next { t with latch := l })

/-- Writing an address and a value and reading it back at the same address returns the value, where the addressed bytes are
fully writable (95_test_vectors E9; R76, R87, R101, R130, R162). -/
def Obligations.ConfigWriteThenReadReturnsTheValue : Prop :=
  ∀ (s : State) (w : Width) (b : BitVec 8) (x : BitVec 5) (f : BitVec 3) (r : BitVec 8) (v : BitVec 32)
    (h : Handle) (d : DeviceRecord),
    s.fatal = false → s.init = true → b.toNat < s.params.nbus → x.toNat < s.params.nslot →
    cellAt s b.toNat x.toNat = some h → deviceOf s h = some d → isCustom s h = false →
    r.toNat + w.bytes ≤ 256 → (∀ k < w.bytes, readByte d.mask (r.toNat + k) = 0xFF) →
    ∃ t, execAll (cfgWrExpansion w b x f r v ++ cfgRdExpansion w b x f r) s = .next t ∧
      t.outbox = .data (valueOf w v) :: .done :: .done :: .done :: s.outbox

/-! ## The device port (spec 42_config_space) -/

/-- DEV_RD of a generic device returns its stored bytes, little-endian, and changes nothing; a byte past the end is a free
value (R161, R165, R166; D2, D7; log 5, 9). -/
def Obligations.DevRdReturnsStoredBytes : Prop :=
  ∀ (s : State) (h : Handle) (d : DeviceRecord) (reg : BitVec 8),
    s.fatal = false → deviceOf s h = some d → isCustom s h = false →
    exec (.devRd h .w1 reg) s = .next { s with outbox := .data (.b8 (readByte d.data reg.toNat)) :: s.outbox } ∧
    exec (.devRd h .w2 reg) s = .next { s with
      draws := if reg.toNat + 2 ≤ 256 then s.draws else s.draws + 1
      outbox := .data (.b16 (cfgByte s.draws h d (reg.toNat + 1) ++ cfgByte s.draws h d reg.toNat)) :: s.outbox } ∧
    exec (.devRd h .w4 reg) s = .next { s with
      draws := if reg.toNat + 4 ≤ 256 then s.draws else s.draws + 1
      outbox := .data (.b32 (cfgByte s.draws h d (reg.toNat + 3) ++ cfgByte s.draws h d (reg.toNat + 2) ++
        cfgByte s.draws h d (reg.toNat + 1) ++ cfgByte s.draws h d reg.toNat)) :: s.outbox }

/-- DEV_WR of a generic device writes under the mask the bytes below 256, drops the rest without wrapping, and leaves every
other byte, the masks and every other device (R162, R164; D2; log 9). -/
def Obligations.DevWrObeysTheMask : Prop :=
  ∀ (s : State) (h : Handle) (d : DeviceRecord) (w : Width) (reg : BitVec 8) (v : BitVec 32),
    s.fatal = false → deviceOf s h = some d → isCustom s h = false →
    ∃ t d', exec (.devWr h w reg v) s = .next t ∧ OnlyDevice s t h d' .done ∧ d'.mask = d.mask ∧
      ∀ i ≤ 255, readByte d'.data i = maskedByte d reg.toNat w.bytes v i

/-- A direct device-port call of a handle that is not in DS is refused (R160, R255; D17). -/
def Obligations.DirectCallsNeedADevice : Prop :=
  ∀ (s : State) (h : Handle) (w : Width) (reg : BitVec 8) (v : BitVec 32), s.fatal = false → deviceOf s h = none →
    exec (.devRd h w reg) s = .refused .noDevice ∧ exec (.devWr h w reg v) s = .refused .noDevice

/-- The write law of one byte: after DEV_WR of v at r, DEV_RD at r returns (old & ~m) | (v & m), for every r (R163). -/
def Obligations.SingleByteWriteLaw : Prop :=
  ∀ (s : State) (h : Handle) (d : DeviceRecord) (r v : BitVec 8),
    s.fatal = false → deviceOf s h = some d → isCustom s h = false →
    ∃ t, exec (.devWr h .w1 r (v.setWidth 32)) s = .next t ∧
      exec (.devRd h .w1 r) t = .next { t with
        outbox := .data (.b8 ((readByte d.data r.toNat &&& ~~~ readByte d.mask r.toNat) |||
          (v &&& readByte d.mask r.toNat))) :: t.outbox }

/-- A write of w bytes inside the space has the effect of w one-byte writes of its bytes, in any order (R53; the spec's own
inference from R52 and R162). -/
def Obligations.WideWriteIsByteWritesInAnyOrder : Prop :=
  ∀ (s : State) (h : Handle) (d : DeviceRecord) (w : Width) (reg : BitVec 8) (v : BitVec 32) (ks : List Nat),
    s.fatal = false → deviceOf s h = some d → isCustom s h = false → reg.toNat + w.bytes ≤ 256 →
    ks.Perm (List.range w.bytes) →
    ∃ t u dt du, exec (.devWr h w reg v) s = .next t ∧
      execAll (ks.map fun k => .devWr h .w1 (reg + BitVec.ofNat 8 k) ((v >>> (8 * k)) &&& 0xFF)) s = .next u ∧
      deviceOf t h = some dt ∧ deviceOf u h = some du ∧ dt.mask = du.mask ∧
      (∀ i ≤ 255, readByte dt.data i = readByte du.data i) ∧
      ∀ h', h' ≠ h → deviceOf t h' = deviceOf u h'

/-- A read of w bytes inside the space returns what w one-byte reads return, assembled little-endian (R53; the spec's own
inference from R52). -/
def Obligations.WideReadIsByteReads : Prop :=
  ∀ (s : State) (h : Handle) (d : DeviceRecord) (reg : BitVec 8) (b : Nat → Byte),
    s.fatal = false → deviceOf s h = some d → isCustom s h = false →
    ((∀ k < 2, exec (.devRd h .w1 (reg + BitVec.ofNat 8 k)) s = .next { s with outbox := .data (.b8 (b k)) :: s.outbox }) →
      reg.toNat + 2 ≤ 256 →
      exec (.devRd h .w2 reg) s = .next { s with outbox := .data (.b16 (b 1 ++ b 0)) :: s.outbox }) ∧
    ((∀ k < 4, exec (.devRd h .w1 (reg + BitVec.ofNat 8 k)) s = .next { s with outbox := .data (.b8 (b k)) :: s.outbox }) →
      reg.toNat + 4 ≤ 256 →
      exec (.devRd h .w4 reg) s = .next { s with outbox := .data (.b32 (b 3 ++ b 2 ++ b 1 ++ b 0)) :: s.outbox })

/-- Writing the same value again changes no byte of any device (R60; the spec's own inference from R162). -/
def Obligations.RepeatedWriteChangesNothing : Prop :=
  ∀ (s t u : State) (h : Handle) (w : Width) (reg : BitVec 8) (v : BitVec 32), isCustom s h = false →
    exec (.devWr h w reg v) s = .next t → exec (.devWr h w reg v) t = .next u →
    ∃ dt du, deviceOf t h = some dt ∧ deviceOf u h = some du ∧ du.mask = dt.mask ∧
      (∀ i ≤ 255, readByte du.data i = readByte dt.data i) ∧
      ∀ h', h' ≠ h → deviceOf u h' = deviceOf t h'

/-- A custom device answers by its own functions and may change its own record alone, through the device port and through
the data ports (R137, R168; D16; the direct call's dispatch is log 15, the functions are log 7). -/
def Obligations.CustomDevicesAnswerThemselves : Prop :=
  ∀ (s : State) (h : Handle) (d : DeviceRecord) (w : Width) (reg : BitVec 8) (v : BitVec 32) (off : BitVec 2),
    s.fatal = false → deviceOf s h = some d → isCustom s h = true → w.fits v = true →
    (∀ i, i = .devRd h w reg ∨ (i = cdRead w off ∧ s.init = true ∧ targetIs s h ∧ reg.toNat = registerIndex s.latch off) →
      ∃ t d', exec i s = .next t ∧
        OnlyDevice s t h d' (.data (valueOf w (Config.customReadValue h d.data d.mask reg w))) ∧
        ∀ k : BitVec 8, readByte d'.data k.toNat = Config.customReadData h d.data d.mask reg w k ∧
          readByte d'.mask k.toNat = Config.customReadMask h d.data d.mask reg w k) ∧
    (∀ i, i = .devWr h w reg v ∨
        (i = cdWrite w off v ∧ s.init = true ∧ targetIs s h ∧ reg.toNat = registerIndex s.latch off) →
      ∃ t d', exec i s = .next t ∧ OnlyDevice s t h d' .done ∧
        ∀ k : BitVec 8, readByte d'.data k.toNat = Config.customWriteData h d.data d.mask reg w v k ∧
          readByte d'.mask k.toNat = Config.customWriteMask h d.data d.mask reg w v k)

/-! ## The registry (spec 43_registry) -/

/-- H_REGISTER of `null` fails with InvalidArgument whatever the placement, and initializes the block (R191, R252, R258; D13,
log 11). -/
def Obligations.RegisterNullIsInvalid : Prop :=
  ∀ (s : State) (rb rs : Option Nat), s.fatal = false →
    exec (.hRegister nullHandle rb rs) s =
      .next { s with init := true, outbox := .failed .invalidArgument :: s.outbox }

/-- H_REGISTER of a handle that is not in DS, or that is already in a cell, is refused (R191, R255, R258; D12). -/
def Obligations.RegisterRefusesUnknownAndRegistered : Prop :=
  ∀ (s : State) (h : Handle) (rb rs : Option Nat), s.fatal = false → h ≠ nullHandle →
    (deviceOf s h = none → exec (.hRegister h rb rs) s = .refused .unknownDevice) ∧
    (deviceOf s h ≠ none → registered s h = true → exec (.hRegister h rb rs) s = .refused .alreadyRegistered)

/-- H_REGISTER with an explicit bus or slot outside the table fails with OutOfBounds and places nothing (R191, R252; D13). -/
def Obligations.RegisterOutsideTheTableFails : Prop :=
  ∀ (s : State) (h : Handle) (rb rs : Option Nat), s.fatal = false → h ≠ nullHandle → deviceOf s h ≠ none →
    registered s h = false →
    ((∃ b, rb = some b ∧ s.params.nbus ≤ b) ∨ ∃ x, rs = some x ∧ s.params.nslot ≤ x) →
    exec (.hRegister h rb rs) s = .next { s with init := true, outbox := .failed .outOfBounds :: s.outbox }

/-- H_REGISTER at an explicit free cell succeeds, returns that slot and fills that cell alone (R191, R193, R194). -/
def Obligations.RegisterAtAFreeCellSucceeds : Prop :=
  ∀ (s : State) (h : Handle) (b x : Nat), s.fatal = false → h ≠ nullHandle → deviceOf s h ≠ none →
    registered s h = false → b < s.params.nbus → x < s.params.nslot → cellAt s b x = none →
    ∃ t, exec (.hRegister h (some b) (some x)) s = .next t ∧ OnlyCellFilled s t b x h (.registered x)

/-- H_REGISTER at an explicit occupied cell is the fatal condition: `fatal` is set, everything else is as before and nothing
is returned (R193, R253; D11; log 13). -/
def Obligations.RegisterCollisionIsFatal : Prop :=
  ∀ (s : State) (h : Handle) (b x : Nat), s.fatal = false → h ≠ nullHandle → deviceOf s h ≠ none →
    registered s h = false → b < s.params.nbus → x < s.params.nslot → cellAt s b x ≠ none →
    exec (.hRegister h (some b) (some x)) s = .next { s with fatal := true }

/-- Without an explicit cell, H_REGISTER takes the first empty cell, in row-major order, of those the given bus or slot
allows; if they are all occupied it fails with NoFreeSlot (R192, R194, R198; D10, C1). -/
def Obligations.AutoPlacementTakesTheFirstEmptyCell : Prop :=
  ∀ (s : State) (h : Handle) (rb rs : Option Nat), s.fatal = false → h ≠ nullHandle → deviceOf s h ≠ none →
    registered s h = false → (rb = none ∨ rs = none) →
    (∀ b, rb = some b → b < s.params.nbus) → (∀ x, rs = some x → x < s.params.nslot) →
    (∀ b x, b < s.params.nbus → x < s.params.nslot → (∀ b0, rb = some b0 → b = b0) → (∀ x0, rs = some x0 → x = x0) →
      cellAt s b x = none →
      (∀ b' x', b' < s.params.nbus → x' < s.params.nslot → (∀ b0, rb = some b0 → b' = b0) →
        (∀ x0, rs = some x0 → x' = x0) → (b' < b ∨ b' = b ∧ x' < x) → cellAt s b' x' ≠ none) →
      ∃ t, exec (.hRegister h rb rs) s = .next t ∧ OnlyCellFilled s t b x h (.registered x)) ∧
    ((∀ b x, b < s.params.nbus → x < s.params.nslot → (∀ b0, rb = some b0 → b = b0) → (∀ x0, rs = some x0 → x = x0) →
      cellAt s b x ≠ none) →
      exec (.hRegister h rb rs) s = .next { s with init := true, outbox := .failed .noFreeSlot :: s.outbox })

/-- A registration takes effect at once: the returned slot, on some bus of the table, is where the next data-port access
finds the device (R194, R195; the spec's own inference from R190, R192, R63). -/
def Obligations.RegistrationIsSeenAtOnce : Prop :=
  ∀ (s t : State) (h : Handle) (rb rs : Option Nat) (x : Nat), exec (.hRegister h rb rs) s = .next t →
    t.outbox = .registered x :: s.outbox →
    ∃ b, b < t.params.nbus ∧ x < t.params.nslot ∧ (∀ b0, rb = some b0 → b = b0) ∧ (∀ x0, rs = some x0 → x = x0) ∧
      ∀ l : BitVec 32, l.getLsbD 31 = true → (l.extractLsb' 16 8).toNat = b → (l.extractLsb' 11 5).toNat = x →
        targetIs { t with latch := l } h

/-- H_UNREGISTER of a registered handle returns true, empties its cell alone and keeps its record, now host-owned (R196, R30;
D24). -/
def Obligations.UnregisterEmptiesTheCell : Prop :=
  ∀ (s : State) (h : Handle) (b x : Nat), s.Inv → s.fatal = false → b < s.params.nbus → x < s.params.nslot →
    cellAt s b x = some h →
    ∃ t, exec (.hUnregister h) s = .next t ∧
      t = { s with table := t.table, outbox := .bool true :: s.outbox } ∧ cellAt t b x = none ∧
      (∀ b' x', x' < s.params.nslot → (b' ≠ b ∨ x' ≠ x) → cellAt t b' x' = cellAt s b' x') ∧ hostOwned t h = true

/-- H_UNREGISTER of a handle in no cell, `null` among them, returns false and changes nothing (R196). -/
def Obligations.UnregisterOfAnUnregisteredIsFalse : Prop :=
  (∀ (s : State) (h : Handle), s.fatal = false → registered s h = false →
    exec (.hUnregister h) s = .next { s with outbox := .bool false :: s.outbox }) ∧
  (∀ s : State, s.Inv → registered s nullHandle = false)

/-- After H_UNREGISTER has emptied the cell (b, x), every claimed read routed there returns all ones and every write is a
no-op (R197). -/
def Obligations.UnregisteredCellReadsAbsent : Prop :=
  ∀ (s t : State) (h : Handle) (b x : Nat) (l : BitVec 32) (w : Width) (off : BitVec 2) (v : BitVec 32),
    s.Inv → s.init = true → b < s.params.nbus → x < s.params.nslot → cellAt s b x = some h →
    exec (.hUnregister h) s = .next t → (l.extractLsb' 16 8).toNat = b → (l.extractLsb' 11 5).toNat = x →
    exec (cdRead w off) { t with latch := l } = .next { t with latch := l, outbox := .data (ones w) :: t.outbox } ∧
    exec (cdWrite w off v) { t with latch := l } = .next { t with latch := l, outbox := .done :: t.outbox }

/-! ## The lifecycle and the device store (spec 44_lifecycle) -/

/-- H_INIT sets `init` and nothing else, also when it is set already (R220, R226; D14). -/
def Obligations.HInitInstallsTheDecode : Prop :=
  ∀ s : State, s.fatal = false → exec .hInit s = .next { s with init := true, outbox := .done :: s.outbox }

/-- H_SHUTDOWN clears `init` and the latch, empties the table, destroys the registered devices and keeps the host-owned ones
with all their bytes (R221, R280, R281, R266; the latch's value is the spec's own choice D8, log 8; D15). -/
def Obligations.HShutdownTearsDown : Prop :=
  ∀ s : State, s.fatal = false →
    ∃ t, exec .hShutdown s = .next t ∧
      t = { s with latch := 0, init := false, table := [], devices := t.devices, outbox := .done :: s.outbox } ∧
      ∀ h, deviceOf t h = if registered s h then none else deviceOf s h

/-- H_IS_INIT, whose descriptor is 0x840000, returns `init` and changes nothing; it is true after any H_REGISTER that ends
in a result, a failed one included; it is false at power-on and true after H_INIT (R222). -/
def Obligations.HIsInitReportsTheFlag : Prop :=
  (∀ o : Operands, decode ⟨0x840000, o⟩ = .instr .hIsInit) ∧
  (∀ s : State, s.fatal = false → exec .hIsInit s = .next { s with outbox := .bool s.init :: s.outbox }) ∧
  (∀ (s t : State) (h : Handle) (rb rs : Option Nat), exec (.hRegister h rb rs) s = .next t → t.fatal = false →
    exec .hIsInit t = .next { t with outbox := .bool true :: t.outbox }) ∧
  (∀ p : Params, exec .hIsInit (State.powerOn p) =
    .next { State.powerOn p with outbox := [.bool false] }) ∧
  (∀ s t : State, exec .hInit s = .next t → exec .hIsInit t = .next { t with outbox := .bool true :: t.outbox })

/-- H_CREATE returns a handle that is not null and was never returned before, and adds a record with the construction
defaults, leaving every other record, the table and `init`; it returns the allocator's proposal where that is fresh (R223,
R167, U12; the bytes are the spec's own choice D2, D9, log 9; the handle is free, log 6). -/
def Obligations.HCreateAddsAFreshDevice : Prop :=
  ∀ (s : State) (vendor device : BitVec 16), s.fatal = false →
    ∃ t h d, exec (.hCreate vendor device) s = .next t ∧ h ≠ nullHandle ∧ h ∉ s.issued ∧
      t = { s with
        devices := t.devices
        outbox := .handle h :: s.outbox
        issued := h :: s.issued
        draws := t.draws
        handleSupply := t.handleSupply } ∧
      (s.Inv → deviceOf s h = none) ∧ deviceOf t h = some d ∧ (∀ h', h' ≠ h → deviceOf t h' = deviceOf s h') ∧
      readByte d.data 1 ++ readByte d.data 0 = vendor ∧ readByte d.data 3 ++ readByte d.data 2 = device ∧
      (∀ i, 4 ≤ i → readByte d.data i = 0) ∧ readByte d.mask 4 = 0x03 ∧ readByte d.mask 5 = 0x04 ∧
      (∀ i, i ≠ 4 → i ≠ 5 → readByte d.mask i = 0) ∧
      ∀ c rest, s.handleSupply = c :: rest → c ≠ nullHandle → c ∉ s.issued → h = c

/-- H_DEVSET sets one data byte and its mask byte, unmasked, whether or not the device is registered, and changes nothing
else; a handle that is not in DS is refused (R224, R169, R255; D17). -/
def Obligations.HDevsetSetsOneByteUnmasked : Prop :=
  ∀ (s : State) (h : Handle) (index data mask : BitVec 8), s.fatal = false →
    (∀ d, deviceOf s h = some d →
      ∃ t d', exec (.hDevset h index data mask) s = .next t ∧ OnlyDevice s t h d' .done ∧
        readByte d'.data index.toNat = data ∧ readByte d'.mask index.toNat = mask ∧
        ∀ j, j ≠ index.toNat → readByte d'.data j = readByte d.data j ∧ readByte d'.mask j = readByte d.mask j) ∧
    (deviceOf s h = none → exec (.hDevset h index data mask) s = .refused .unknownDevice)

/-- H_DESTROY removes a host-owned record alone; a registered one, or a handle that is not in DS, is refused (R225, R255;
D17). -/
def Obligations.HDestroyRemovesAHostOwnedDevice : Prop :=
  ∀ (s : State) (h : Handle), s.fatal = false →
    (deviceOf s h ≠ none → registered s h = false →
      ∃ t, exec (.hDestroy h) s = .next t ∧ t = { s with devices := t.devices, outbox := .done :: s.outbox } ∧
        deviceOf t h = none ∧ ∀ h', h' ≠ h → deviceOf t h' = deviceOf s h') ∧
    (deviceOf s h ≠ none → registered s h = true → exec (.hDestroy h) s = .refused .destroyRegistered) ∧
    (deviceOf s h = none → exec (.hDestroy h) s = .refused .unknownDevice)

/-- Bring-up from power-on, for every implementation: create a device, register it, write the address of bus 0, slot 0, and
the first two bytes read as its vendor ID (R282, R223, R226, R191, R192, R101, R132, R167; D2, D10, D13). -/
def Obligations.BringUpFindsTheDevice : Prop :=
  ∀ (p : Params) (vendor device : BitVec 16) (t : State) (h : Handle),
    exec (.hCreate vendor device) (State.powerOn p) = .next t → t.outbox = [.handle h] → isCustom t h = false →
    ∃ u, execAll [.hRegister h none none, .caWr32 0x80000000, .cdRd16 0] t = .next u ∧
      u.outbox = [.data (.b16 vendor), .done, .registered 0, .handle h]

/-! ## Whole-machine rules -/

/-- The spec's state at power-on, for every implementation (R24, R25, R27, R31, R35, R280; the latch's value is the spec's
own choice D8, log 8; the standard parameters are the model's choice, log 2). -/
def Obligations.PowerOnState : Prop :=
  (∀ p : Params, (State.powerOn p).latch = 0 ∧ (State.powerOn p).init = false ∧ (State.powerOn p).fatal = false ∧
    (∀ b x, cellAt (State.powerOn p) b x = none) ∧ (∀ h, deviceOf (State.powerOn p) h = none) ∧
    (State.powerOn p).params = p) ∧
  State.reset = State.powerOn Params.standard

/-- The invariant holds at power-on, for every implementation, and so at reset (R25 to R27, R227, R280). -/
def Obligations.PowerOnMeetsTheInvariant : Prop := ∀ p : Params, (State.powerOn p).Inv

/-- Every step keeps the invariant: the table and the store stay in canonical form, every occupied cell is a cell of the table
and holds a live device, no device is in two cells, no handle is null or returned twice, and an uninitialized block has an
empty table (R11, R25, R26, R27, R223, R227; the canonical forms are the model's, log 17, 18). -/
def Obligations.StepKeepsTheInvariant : Prop :=
  ∀ s t : State, s.Inv → step s = .next t → t.Inv

/-- `init` rises only by H_INIT or H_REGISTER and falls only by H_SHUTDOWN (R24, R266). -/
def Obligations.InitChangesOnlyByLifecycleCalls : Prop :=
  ∀ (i : Instr) (s t : State), exec i s = .next t →
    (s.init = false → t.init = true → i = .hInit ∨ ∃ h rb rs, i = .hRegister h rb rs) ∧
    (s.init = true → t.init = false → i = .hShutdown)

/-- The fatal flag is set by nothing but an explicit-placement collision, which leaves everything else (R31, R253; D11). -/
def Obligations.FatalOnlyByCollision : Prop :=
  ∀ (i : Instr) (s t : State), exec i s = .next t → t.fatal = true →
    ∃ h b x, i = .hRegister h (some b) (some x) ∧ h ≠ nullHandle ∧ b < s.params.nbus ∧ x < s.params.nslot ∧
      cellAt s b x ≠ none ∧ t = { s with fatal := true }

/-- The table is written by H_REGISTER, H_UNREGISTER and H_SHUTDOWN alone; with generic devices the store is written by
H_CREATE, H_DESTROY, H_SHUTDOWN, H_DEVSET, DEV_WR and the guest's data writes alone (R25, R27, R59; custom reads: R168). -/
def Obligations.TableAndStoreWriters : Prop :=
  ∀ (i : Instr) (s t : State), exec i s = .next t →
    ((∀ h rb rs, i ≠ .hRegister h rb rs) → (∀ h, i ≠ .hUnregister h) → i ≠ .hShutdown → t.table = s.table) ∧
    ((∀ v d, i ≠ .hCreate v d) → (∀ h, i ≠ .hDestroy h) → i ≠ .hShutdown → (∀ h k d m, i ≠ .hDevset h k d m) →
      (∀ h w r v, i ≠ .devWr h w r v) → (∀ w off v, i ≠ cdWrite w off v) →
      s.params.customHandles = [] → t.devices = s.devices)

/-- In a state that meets the invariant every guest transaction completes: none raises an error (R250). The narrow accesses
that NARROW_ADDR refuses are the model refusal of R255 (D3). -/
def Obligations.GuestTransactionsNeverFail : Prop :=
  ∀ (s : State) (i : Instr), s.Inv → s.fatal = false → isGuest i = true →
    (isNarrow i = true → s.params.narrowAddr ≠ .refuse) → ∃ t, exec i s = .next t

/-- A guest transaction changes a bit of a generic device only where the mask bit is 1, and never a mask; H_DEVSET is no
guest transaction, and the byte it sets is not masked (R28). -/
def Obligations.GuestChangesOnlyMaskedBits : Prop :=
  (∀ (s t : State) (i : Instr) (h : Handle) (d : DeviceRecord), isGuest i = true → exec i s = .next t →
    deviceOf s h = some d → isCustom s h = false →
    ∃ d', deviceOf t h = some d' ∧ d'.mask = d.mask ∧
      ∀ k ≤ 255, ∀ j < 8, (readByte d'.data k).getLsbD j ≠ (readByte d.data k).getLsbD j →
        (readByte d.mask k).getLsbD j = true) ∧
  (∀ (s t : State) (h : Handle) (index data mask : BitVec 8), exec (.hDevset h index data mask) s = .next t →
    isGuest (.hDevset h index data mask) = false ∧ ∃ d, deviceOf t h = some d ∧ readByte d.data index.toNat = data)

/-- A guest transaction reaches nothing of the host's side: not the table, `init`, `fatal`, the parameters, the handles or
the set of devices (R62, R261). -/
def Obligations.GuestReachesOnlyLatchAndBytes : Prop :=
  ∀ (s t : State) (i : Instr), isGuest i = true → exec i s = .next t →
    t.table = s.table ∧ t.init = s.init ∧ t.fatal = s.fatal ∧ t.params = s.params ∧ t.issued = s.issued ∧
      t.handleSupply = s.handleSupply ∧ t.inbox = s.inbox ∧
      ∀ h, deviceOf t h = none ↔ deviceOf s h = none
end

