-- ==== Sys2Proof/Laws/State.lean ====
section
/-! SUPPORT. What each update of the state does to each field: one lemma per field per update, so that no later proof
unfolds an update. -/

namespace Sys2Proof.Machine

open Sys2Proof

@[simp] theorem respond_latch (r : Response) (s : State) : (respond r s).latch = s.latch := rfl
@[simp] theorem respond_init (r : Response) (s : State) : (respond r s).init = s.init := rfl
@[simp] theorem respond_table (r : Response) (s : State) : (respond r s).table = s.table := rfl
@[simp] theorem respond_devices (r : Response) (s : State) : (respond r s).devices = s.devices := rfl
@[simp] theorem respond_fatal (r : Response) (s : State) : (respond r s).fatal = s.fatal := rfl
@[simp] theorem respond_params (r : Response) (s : State) : (respond r s).params = s.params := rfl
@[simp] theorem respond_inbox (r : Response) (s : State) : (respond r s).inbox = s.inbox := rfl
@[simp] theorem respond_outbox (r : Response) (s : State) : (respond r s).outbox = r :: s.outbox := rfl
@[simp] theorem respond_draws (r : Response) (s : State) : (respond r s).draws = s.draws := rfl
@[simp] theorem respond_issued (r : Response) (s : State) : (respond r s).issued = s.issued := rfl
@[simp] theorem respond_handleSupply (r : Response) (s : State) : (respond r s).handleSupply = s.handleSupply := rfl

@[simp] theorem countDraw_latch (s : State) : (countDraw s).latch = s.latch := rfl
@[simp] theorem countDraw_init (s : State) : (countDraw s).init = s.init := rfl
@[simp] theorem countDraw_table (s : State) : (countDraw s).table = s.table := rfl
@[simp] theorem countDraw_devices (s : State) : (countDraw s).devices = s.devices := rfl
@[simp] theorem countDraw_fatal (s : State) : (countDraw s).fatal = s.fatal := rfl
@[simp] theorem countDraw_params (s : State) : (countDraw s).params = s.params := rfl
@[simp] theorem countDraw_inbox (s : State) : (countDraw s).inbox = s.inbox := rfl
@[simp] theorem countDraw_outbox (s : State) : (countDraw s).outbox = s.outbox := rfl
@[simp] theorem countDraw_draws (s : State) : (countDraw s).draws = s.draws + 1 := rfl
@[simp] theorem countDraw_issued (s : State) : (countDraw s).issued = s.issued := rfl
@[simp] theorem countDraw_handleSupply (s : State) : (countDraw s).handleSupply = s.handleSupply := rfl

@[simp] theorem setDevice_latch (h : Handle) (d : DeviceRecord) (s : State) : (setDevice h d s).latch = s.latch := rfl
@[simp] theorem setDevice_init (h : Handle) (d : DeviceRecord) (s : State) : (setDevice h d s).init = s.init := rfl
@[simp] theorem setDevice_table (h : Handle) (d : DeviceRecord) (s : State) : (setDevice h d s).table = s.table := rfl
@[simp] theorem setDevice_devices (h : Handle) (d : DeviceRecord) (s : State) : (setDevice h d s).devices = mapSet s.devices h d := rfl
@[simp] theorem setDevice_fatal (h : Handle) (d : DeviceRecord) (s : State) : (setDevice h d s).fatal = s.fatal := rfl
@[simp] theorem setDevice_params (h : Handle) (d : DeviceRecord) (s : State) : (setDevice h d s).params = s.params := rfl
@[simp] theorem setDevice_inbox (h : Handle) (d : DeviceRecord) (s : State) : (setDevice h d s).inbox = s.inbox := rfl
@[simp] theorem setDevice_outbox (h : Handle) (d : DeviceRecord) (s : State) : (setDevice h d s).outbox = s.outbox := rfl
@[simp] theorem setDevice_draws (h : Handle) (d : DeviceRecord) (s : State) : (setDevice h d s).draws = s.draws := rfl
@[simp] theorem setDevice_issued (h : Handle) (d : DeviceRecord) (s : State) : (setDevice h d s).issued = s.issued := rfl
@[simp] theorem setDevice_handleSupply (h : Handle) (d : DeviceRecord) (s : State) : (setDevice h d s).handleSupply = s.handleSupply := rfl

@[simp] theorem removeDevice_latch (h : Handle) (s : State) : (removeDevice h s).latch = s.latch := rfl
@[simp] theorem removeDevice_init (h : Handle) (s : State) : (removeDevice h s).init = s.init := rfl
@[simp] theorem removeDevice_table (h : Handle) (s : State) : (removeDevice h s).table = s.table := rfl
@[simp] theorem removeDevice_devices (h : Handle) (s : State) : (removeDevice h s).devices = mapErase s.devices h := rfl
@[simp] theorem removeDevice_fatal (h : Handle) (s : State) : (removeDevice h s).fatal = s.fatal := rfl
@[simp] theorem removeDevice_params (h : Handle) (s : State) : (removeDevice h s).params = s.params := rfl
@[simp] theorem removeDevice_inbox (h : Handle) (s : State) : (removeDevice h s).inbox = s.inbox := rfl
@[simp] theorem removeDevice_outbox (h : Handle) (s : State) : (removeDevice h s).outbox = s.outbox := rfl
@[simp] theorem removeDevice_draws (h : Handle) (s : State) : (removeDevice h s).draws = s.draws := rfl
@[simp] theorem removeDevice_issued (h : Handle) (s : State) : (removeDevice h s).issued = s.issued := rfl
@[simp] theorem removeDevice_handleSupply (h : Handle) (s : State) : (removeDevice h s).handleSupply = s.handleSupply := rfl

@[simp] theorem fillCell_latch (b x : Nat) (h : Handle) (s : State) : (fillCell b x h s).latch = s.latch := rfl
@[simp] theorem fillCell_init (b x : Nat) (h : Handle) (s : State) : (fillCell b x h s).init = s.init := rfl
@[simp] theorem fillCell_table (b x : Nat) (h : Handle) (s : State) : (fillCell b x h s).table = mapSet s.table (cellKey b x) h := rfl
@[simp] theorem fillCell_devices (b x : Nat) (h : Handle) (s : State) : (fillCell b x h s).devices = s.devices := rfl
@[simp] theorem fillCell_fatal (b x : Nat) (h : Handle) (s : State) : (fillCell b x h s).fatal = s.fatal := rfl
@[simp] theorem fillCell_params (b x : Nat) (h : Handle) (s : State) : (fillCell b x h s).params = s.params := rfl
@[simp] theorem fillCell_inbox (b x : Nat) (h : Handle) (s : State) : (fillCell b x h s).inbox = s.inbox := rfl
@[simp] theorem fillCell_outbox (b x : Nat) (h : Handle) (s : State) : (fillCell b x h s).outbox = s.outbox := rfl
@[simp] theorem fillCell_draws (b x : Nat) (h : Handle) (s : State) : (fillCell b x h s).draws = s.draws := rfl
@[simp] theorem fillCell_issued (b x : Nat) (h : Handle) (s : State) : (fillCell b x h s).issued = s.issued := rfl
@[simp] theorem fillCell_handleSupply (b x : Nat) (h : Handle) (s : State) : (fillCell b x h s).handleSupply = s.handleSupply := rfl

@[simp] theorem clearCell_latch (k : Nat) (s : State) : (clearCell k s).latch = s.latch := rfl
@[simp] theorem clearCell_init (k : Nat) (s : State) : (clearCell k s).init = s.init := rfl
@[simp] theorem clearCell_table (k : Nat) (s : State) : (clearCell k s).table = mapErase s.table k := rfl
@[simp] theorem clearCell_devices (k : Nat) (s : State) : (clearCell k s).devices = s.devices := rfl
@[simp] theorem clearCell_fatal (k : Nat) (s : State) : (clearCell k s).fatal = s.fatal := rfl
@[simp] theorem clearCell_params (k : Nat) (s : State) : (clearCell k s).params = s.params := rfl
@[simp] theorem clearCell_inbox (k : Nat) (s : State) : (clearCell k s).inbox = s.inbox := rfl
@[simp] theorem clearCell_outbox (k : Nat) (s : State) : (clearCell k s).outbox = s.outbox := rfl
@[simp] theorem clearCell_draws (k : Nat) (s : State) : (clearCell k s).draws = s.draws := rfl
@[simp] theorem clearCell_issued (k : Nat) (s : State) : (clearCell k s).issued = s.issued := rfl
@[simp] theorem clearCell_handleSupply (k : Nat) (s : State) : (clearCell k s).handleSupply = s.handleSupply := rfl

@[simp] theorem raiseFatal_latch (s : State) : (raiseFatal s).latch = s.latch := rfl
@[simp] theorem raiseFatal_init (s : State) : (raiseFatal s).init = s.init := rfl
@[simp] theorem raiseFatal_table (s : State) : (raiseFatal s).table = s.table := rfl
@[simp] theorem raiseFatal_devices (s : State) : (raiseFatal s).devices = s.devices := rfl
@[simp] theorem raiseFatal_fatal (s : State) : (raiseFatal s).fatal = true := rfl
@[simp] theorem raiseFatal_params (s : State) : (raiseFatal s).params = s.params := rfl
@[simp] theorem raiseFatal_inbox (s : State) : (raiseFatal s).inbox = s.inbox := rfl
@[simp] theorem raiseFatal_outbox (s : State) : (raiseFatal s).outbox = s.outbox := rfl
@[simp] theorem raiseFatal_draws (s : State) : (raiseFatal s).draws = s.draws := rfl
@[simp] theorem raiseFatal_issued (s : State) : (raiseFatal s).issued = s.issued := rfl
@[simp] theorem raiseFatal_handleSupply (s : State) : (raiseFatal s).handleSupply = s.handleSupply := rfl

@[simp] theorem issueHandle_latch (h : Handle) (s : State) : (issueHandle h s).latch = s.latch := rfl
@[simp] theorem issueHandle_init (h : Handle) (s : State) : (issueHandle h s).init = s.init := rfl
@[simp] theorem issueHandle_table (h : Handle) (s : State) : (issueHandle h s).table = s.table := rfl
@[simp] theorem issueHandle_devices (h : Handle) (s : State) : (issueHandle h s).devices = s.devices := rfl
@[simp] theorem issueHandle_fatal (h : Handle) (s : State) : (issueHandle h s).fatal = s.fatal := rfl
@[simp] theorem issueHandle_params (h : Handle) (s : State) : (issueHandle h s).params = s.params := rfl
@[simp] theorem issueHandle_inbox (h : Handle) (s : State) : (issueHandle h s).inbox = s.inbox := rfl
@[simp] theorem issueHandle_outbox (h : Handle) (s : State) : (issueHandle h s).outbox = s.outbox := rfl
@[simp] theorem issueHandle_draws (h : Handle) (s : State) : (issueHandle h s).draws = s.draws + 1 := rfl
@[simp] theorem issueHandle_issued (h : Handle) (s : State) : (issueHandle h s).issued = h :: s.issued := rfl
@[simp] theorem issueHandle_handleSupply (h : Handle) (s : State) : (issueHandle h s).handleSupply = s.handleSupply.tail := rfl

@[simp] theorem shutDown_latch (s : State) : (shutDown s).latch = 0 := rfl
@[simp] theorem shutDown_init (s : State) : (shutDown s).init = false := rfl
@[simp] theorem shutDown_table (s : State) : (shutDown s).table = [] := rfl
@[simp] theorem shutDown_devices (s : State) : (shutDown s).devices = s.devices.filter fun e => !registered s e.1 := rfl
@[simp] theorem shutDown_fatal (s : State) : (shutDown s).fatal = s.fatal := rfl
@[simp] theorem shutDown_params (s : State) : (shutDown s).params = s.params := rfl
@[simp] theorem shutDown_inbox (s : State) : (shutDown s).inbox = s.inbox := rfl
@[simp] theorem shutDown_outbox (s : State) : (shutDown s).outbox = s.outbox := rfl
@[simp] theorem shutDown_draws (s : State) : (shutDown s).draws = s.draws := rfl
@[simp] theorem shutDown_issued (s : State) : (shutDown s).issued = s.issued := rfl
@[simp] theorem shutDown_handleSupply (s : State) : (shutDown s).handleSupply = s.handleSupply := rfl

@[simp] theorem writeLatch_latch (v : BitVec 32) (s : State) : (writeLatch v s).latch = v := rfl
@[simp] theorem writeLatch_init (v : BitVec 32) (s : State) : (writeLatch v s).init = s.init := rfl
@[simp] theorem writeLatch_table (v : BitVec 32) (s : State) : (writeLatch v s).table = s.table := rfl
@[simp] theorem writeLatch_devices (v : BitVec 32) (s : State) : (writeLatch v s).devices = s.devices := rfl
@[simp] theorem writeLatch_fatal (v : BitVec 32) (s : State) : (writeLatch v s).fatal = s.fatal := rfl
@[simp] theorem writeLatch_params (v : BitVec 32) (s : State) : (writeLatch v s).params = s.params := rfl
@[simp] theorem writeLatch_inbox (v : BitVec 32) (s : State) : (writeLatch v s).inbox = s.inbox := rfl
@[simp] theorem writeLatch_outbox (v : BitVec 32) (s : State) : (writeLatch v s).outbox = .done :: s.outbox := rfl
@[simp] theorem writeLatch_draws (v : BitVec 32) (s : State) : (writeLatch v s).draws = s.draws := rfl
@[simp] theorem writeLatch_issued (v : BitVec 32) (s : State) : (writeLatch v s).issued = s.issued := rfl
@[simp] theorem writeLatch_handleSupply (v : BitVec 32) (s : State) : (writeLatch v s).handleSupply = s.handleSupply := rfl

@[simp] theorem presentNext_latch (d : BitVec 24) (s : State) : (presentNext d s).latch = s.latch := rfl
@[simp] theorem presentNext_init (d : BitVec 24) (s : State) : (presentNext d s).init = s.init := rfl
@[simp] theorem presentNext_table (d : BitVec 24) (s : State) : (presentNext d s).table = s.table := rfl
@[simp] theorem presentNext_devices (d : BitVec 24) (s : State) : (presentNext d s).devices = s.devices := rfl
@[simp] theorem presentNext_fatal (d : BitVec 24) (s : State) : (presentNext d s).fatal = s.fatal := rfl
@[simp] theorem presentNext_params (d : BitVec 24) (s : State) : (presentNext d s).params = s.params := rfl
@[simp] theorem presentNext_inbox (d : BitVec 24) (s : State) : (presentNext d s).inbox = { descriptor := d } :: s.inbox := rfl
@[simp] theorem presentNext_outbox (d : BitVec 24) (s : State) : (presentNext d s).outbox = s.outbox := rfl
@[simp] theorem presentNext_draws (d : BitVec 24) (s : State) : (presentNext d s).draws = s.draws := rfl
@[simp] theorem presentNext_issued (d : BitVec 24) (s : State) : (presentNext d s).issued = s.issued := rfl
@[simp] theorem presentNext_handleSupply (d : BitVec 24) (s : State) : (presentNext d s).handleSupply = s.handleSupply := rfl

@[simp] theorem doInit_latch (s : State) : (doInit s).latch = s.latch := by unfold doInit; split <;> rfl
@[simp] theorem doInit_init (s : State) : (doInit s).init = true := by unfold doInit; split <;> simp_all
@[simp] theorem doInit_table (s : State) : (doInit s).table = s.table := by unfold doInit; split <;> rfl
@[simp] theorem doInit_devices (s : State) : (doInit s).devices = s.devices := by unfold doInit; split <;> rfl
@[simp] theorem doInit_fatal (s : State) : (doInit s).fatal = s.fatal := by unfold doInit; split <;> rfl
@[simp] theorem doInit_params (s : State) : (doInit s).params = s.params := by unfold doInit; split <;> rfl
@[simp] theorem doInit_inbox (s : State) : (doInit s).inbox = s.inbox := by unfold doInit; split <;> rfl
@[simp] theorem doInit_outbox (s : State) : (doInit s).outbox = s.outbox := by unfold doInit; split <;> rfl
@[simp] theorem doInit_draws (s : State) : (doInit s).draws = s.draws := by unfold doInit; split <;> rfl
@[simp] theorem doInit_issued (s : State) : (doInit s).issued = s.issued := by unfold doInit; split <;> rfl
@[simp] theorem doInit_handleSupply (s : State) : (doInit s).handleSupply = s.handleSupply := by unfold doInit; split <;> rfl

@[simp] theorem unclaimed_latch (dir : Dir) (w : Width) (p : BitVec 16) (s : State) : (unclaimed dir w p s).latch = s.latch := by
  cases dir <;> rfl
@[simp] theorem unclaimed_init (dir : Dir) (w : Width) (p : BitVec 16) (s : State) : (unclaimed dir w p s).init = s.init := by
  cases dir <;> rfl
@[simp] theorem unclaimed_table (dir : Dir) (w : Width) (p : BitVec 16) (s : State) : (unclaimed dir w p s).table = s.table := by
  cases dir <;> rfl
@[simp] theorem unclaimed_devices (dir : Dir) (w : Width) (p : BitVec 16) (s : State) : (unclaimed dir w p s).devices = s.devices := by
  cases dir <;> rfl
@[simp] theorem unclaimed_fatal (dir : Dir) (w : Width) (p : BitVec 16) (s : State) : (unclaimed dir w p s).fatal = s.fatal := by
  cases dir <;> rfl
@[simp] theorem unclaimed_params (dir : Dir) (w : Width) (p : BitVec 16) (s : State) : (unclaimed dir w p s).params = s.params := by
  cases dir <;> rfl
@[simp] theorem unclaimed_inbox (dir : Dir) (w : Width) (p : BitVec 16) (s : State) : (unclaimed dir w p s).inbox = s.inbox := by
  cases dir <;> rfl
@[simp] theorem unclaimed_issued (dir : Dir) (w : Width) (p : BitVec 16) (s : State) : (unclaimed dir w p s).issued = s.issued := by
  cases dir <;> rfl
@[simp] theorem unclaimed_handleSupply (dir : Dir) (w : Width) (p : BitVec 16) (s : State) : (unclaimed dir w p s).handleSupply = s.handleSupply := by
  cases dir <;> rfl

/-- DoInit sets the flag and changes nothing else (spec R226). -/
theorem doInit_eq (s : State) : doInit s = { s with init := true } := by
  unfold doInit
  split
  · next h => cases s; simp only at h; subst h; rfl
  · rfl

@[simp] theorem powerOn_params (p : Params) : (State.powerOn p).params = p := rfl

end Sys2Proof.Machine
end

