-- ==== Sys2Proof/Laws/Memory.lean ====
section
/-! SUPPORT. The laws of the sorted maps and of the bytes of a record: reading after writing, and that every memory
operation keeps the canonical form. -/

namespace Sys2Proof.Machine

open Sys2Proof

section Maps

variable {α : Type} (m : List (Nat × α)) (k j : Nat) (v : α)

@[simp] theorem mapGet_nil : mapGet ([] : List (Nat × α)) k = none := rfl

@[simp] theorem mapGet_mapSet_same : mapGet (mapSet m k v) k = some v := by
  induction m with
  | nil => simp [mapSet, mapGet]
  | cons e m ih =>
    obtain ⟨k', v'⟩ := e
    by_cases h1 : k < k'
    · simp [mapSet, h1, mapGet]
    · by_cases h2 : k = k'
      · simp [mapSet, h2, mapGet]
      · simp [mapSet, h1, h2, mapGet, Ne.symm h2, ih]

@[simp] theorem mapGet_mapSet_other (h : j ≠ k) : mapGet (mapSet m k v) j = mapGet m j := by
  induction m with
  | nil => simp [mapSet, mapGet, Ne.symm h]
  | cons e m ih =>
    obtain ⟨k', v'⟩ := e
    by_cases h1 : k < k'
    · simp [mapSet, h1, mapGet, Ne.symm h]
    · by_cases h2 : k = k'
      · subst h2
        simp [mapSet, mapGet, Ne.symm h]
      · simp [mapSet, h1, h2, mapGet, ih]

@[simp] theorem mapGet_mapErase_same : mapGet (mapErase m k) k = none := by
  induction m with
  | nil => rfl
  | cons e m ih =>
    by_cases h1 : e.1 = k
    · simpa [mapErase, h1] using ih
    · simpa [mapErase, h1, mapGet] using ih

@[simp] theorem mapGet_mapErase_other (h : j ≠ k) : mapGet (mapErase m k) j = mapGet m j := by
  induction m with
  | nil => rfl
  | cons e m ih =>
    obtain ⟨k', v'⟩ := e
    by_cases h1 : k' = k
    · subst h1
      simpa [mapErase, mapGet, Ne.symm h] using ih
    · by_cases h2 : k' = j
      · simp [mapErase, mapGet, h2, h]
      · simpa [mapErase, mapGet, h1, h2] using ih

/-- What a map holds is one of its entries. -/
theorem mem_of_mapGet {m : List (Nat × α)} {k : Nat} {v : α} (h : mapGet m k = some v) : (k, v) ∈ m := by
  induction m with
  | nil => simp at h
  | cons e m ih =>
    obtain ⟨k', v'⟩ := e
    by_cases h1 : k' = k <;> simp_all [mapGet]

/-- An entry of a sorted map is what the map holds at its key. -/
theorem mapGet_of_mem {m : List (Nat × α)} {k : Nat} {v : α} (hs : mapSorted m) (h : (k, v) ∈ m) :
    mapGet m k = some v := by
  induction m with
  | nil => simp at h
  | cons e m ih =>
    obtain ⟨k', v'⟩ := e
    simp only [mapSorted, List.map_cons, List.pairwise_cons] at hs
    rcases List.mem_cons.mp h with h | h
    · cases h; simp [mapGet]
    · have hlt : k' < k := hs.1 k (List.mem_map.mpr ⟨_, h, rfl⟩)
      simpa [mapGet, Nat.ne_of_lt hlt] using ih hs.2 h

/-- Setting a key adds at most that key. -/
theorem mem_mapSet {m : List (Nat × α)} {k : Nat} {v : α} {e : Nat × α} (h : e ∈ mapSet m k v) :
    e = (k, v) ∨ e ∈ m := by
  induction m with
  | nil => simpa [mapSet] using h
  | cons e' m ih =>
    obtain ⟨k', v'⟩ := e'
    by_cases h1 : k < k'
    · simpa [mapSet, h1] using h
    · by_cases h2 : k = k'
      · simp only [mapSet, h2, lt_irrefl, if_false, if_true, List.mem_cons] at h
        rcases h with h | h
        · exact .inl (by rw [h, h2])
        · exact .inr (List.mem_cons_of_mem _ h)
      · simp only [mapSet, h1, h2, if_false, List.mem_cons] at h
        rcases h with h | h
        · exact .inr (by simp [h])
        · exact (ih h).imp_right (List.mem_cons_of_mem _)

theorem mapSorted_mapSet {m : List (Nat × α)} (hs : mapSorted m) : mapSorted (mapSet m k v) := by
  induction m with
  | nil => simp [mapSet, mapSorted]
  | cons e m ih =>
    obtain ⟨k', v'⟩ := e
    simp only [mapSorted, List.map_cons, List.pairwise_cons] at hs
    by_cases h1 : k < k'
    · simp only [mapSet, h1, if_true, mapSorted, List.map_cons, List.pairwise_cons]
      refine ⟨?_, hs.1, hs.2⟩
      intro a ha
      rcases List.mem_cons.mp ha with ha | ha
      · exact ha ▸ h1
      · exact h1.trans (hs.1 a ha)
    · by_cases h2 : k = k'
      · subst h2
        simpa [mapSet, mapSorted] using hs
      · simp only [mapSet, h1, h2, if_false, mapSorted, List.map_cons, List.pairwise_cons]
        refine ⟨?_, ih hs.2⟩
        intro a ha
        obtain ⟨e, he, rfl⟩ := List.mem_map.mp ha
        rcases mem_mapSet he with he | he
        · subst he; simp only; omega
        · exact hs.1 _ (List.mem_map.mpr ⟨e, he, rfl⟩)

theorem mapSorted_filter {m : List (Nat × α)} (hs : mapSorted m) (p : Nat × α → Bool) : mapSorted (m.filter p) :=
  List.Pairwise.sublist (List.Sublist.map _ List.filter_sublist) hs

theorem mapSorted_mapErase {m : List (Nat × α)} (hs : mapSorted m) : mapSorted (mapErase m k) :=
  mapSorted_filter hs _

/-- Keeping entries by their key keeps or drops a key whole. -/
theorem mapGet_filter_key (p : Nat → Bool) :
    mapGet (m.filter fun e => p e.1) k = if p k then mapGet m k else none := by
  induction m with
  | nil => simp
  | cons e m ih =>
    obtain ⟨k', v'⟩ := e
    by_cases h1 : p k' <;> by_cases h2 : k' = k <;> simp_all [mapGet]

/-- A key is absent exactly when no entry has it. -/
theorem mapGet_eq_none {m : List (Nat × α)} {k : Nat} : mapGet m k = none ↔ ∀ e ∈ m, e.1 ≠ k := by
  induction m with
  | nil => simp
  | cons e m ih =>
    obtain ⟨k', v'⟩ := e
    by_cases h : k' = k <;> simp_all [mapGet]

end Maps

/-! ## Bytes -/

variable (m : Memory) (i j : Nat) (v : Byte)

@[simp] theorem readByte_nil : readByte [] i = 0 := rfl

@[simp] theorem readByte_writeByte_same : readByte (writeByte m i v) i = v := by
  unfold readByte writeByte
  split <;> simp_all

@[simp] theorem readByte_writeByte_other (h : j ≠ i) : readByte (writeByte m i v) j = readByte m j := by
  unfold readByte writeByte
  split <;> simp_all

/-- Writing a byte at an index below 256 keeps the canonical form. -/
theorem writeByte_wf {m : Memory} {i : Nat} (hm : Memory.wf m) (hi : i < 256) (v : Byte) :
    Memory.wf (writeByte m i v) := by
  unfold writeByte
  split
  · exact ⟨mapSorted_mapErase _ hm.1, fun c hc => hm.2 c (List.mem_of_mem_filter hc)⟩
  · refine ⟨mapSorted_mapSet _ _ hm.1, fun c hc => ?_⟩
    rcases mem_mapSet hc with rfl | hc
    · exact ⟨hi, by assumption⟩
    · exact hm.2 c hc

theorem memory_nil_wf : Memory.wf [] := by simp [Memory.wf, mapSorted]

/-- The bytes a function lists are in canonical form. -/
theorem memoryOf_wf (f : BitVec 8 → Byte) : Memory.wf (memoryOf f) := by
  constructor
  · unfold mapSorted memoryOf
    rw [List.pairwise_map, List.pairwise_filterMap]
    refine List.Pairwise.imp ?_ (List.pairwise_lt_range (n := 256))
    intro a b hab c hc d hd
    have key : ∀ (i : Nat) (e : Nat × Byte),
        (if f (BitVec.ofNat 8 i) = unlistedByte then none else some (i, f (BitVec.ofNat 8 i))) = some e → e.1 = i := by
      intro i e h
      split at h
      · simp at h
      · rw [← Option.some.inj h]
    rw [key a c hc, key b d hd]
    exact hab
  · intro c hc
    simp only [memoryOf, List.mem_filterMap, List.mem_range] at hc
    obtain ⟨a, ha, h⟩ := hc
    split at h
    · simp at h
    · obtain rfl := Option.some.inj h
      exact ⟨ha, by assumption⟩

theorem mapGet_append {α : Type} (l l' : List (Nat × α)) (k : Nat) :
    mapGet (l ++ l') k = (mapGet l k).or (mapGet l' k) := by
  induction l with
  | nil => simp
  | cons e l ih =>
    obtain ⟨a, b⟩ := e
    by_cases h : a = k <;> simp [mapGet, h, ih]

/-- A map listed from a range of keys holds, at each key of the range, what the listing gives that key. -/
theorem mapGet_filterMap_range {α : Type} (g : Nat → Option (Nat × α)) (hg : ∀ i e, g i = some e → e.1 = i) (n k : Nat) :
    mapGet ((List.range n).filterMap g) k = if k < n then (g k).map Prod.snd else none := by
  have single : ∀ i, mapGet ([i].filterMap g) k = if k = i then (g k).map Prod.snd else none := by
    intro i
    cases hi : g i with
    | none => by_cases h : k = i <;> simp [hi, h]
    | some e =>
      obtain ⟨a, b⟩ := e
      obtain rfl : a = i := hg i _ hi
      by_cases h : k = a
      · subst h; simp [hi, mapGet]
      · simp [hi, mapGet, h, Ne.symm h]
  induction n with
  | zero => simp
  | succ n ih =>
    rw [List.range_succ, List.filterMap_append, mapGet_append, ih, single]
    by_cases h : k = n
    · subst h; simp
    · have : k < n + 1 ↔ k < n := by omega
      simp [h, this]

/-- Byte i of the bytes a function lists is `f i`. -/
theorem readByte_memoryOf (f : BitVec 8 → Byte) (r : BitVec 8) : readByte (memoryOf f) r.toNat = f r := by
  have hr : r.toNat < 256 := r.isLt
  unfold readByte memoryOf
  rw [mapGet_filterMap_range]
  · by_cases h : f r = unlistedByte <;> simp [hr, h]
  · intro i e h
    split at h
    · simp at h
    · rw [← Option.some.inj h]

/-! ## The masked write engine -/

@[simp] theorem maskedWriteByte_mask (d : DeviceRecord) (i : Nat) (vb : Byte) : (maskedWriteByte d i vb).mask = d.mask := by
  unfold maskedWriteByte; split <;> rfl

theorem readByte_maskedWriteByte (d : DeviceRecord) (i j : Nat) (vb : Byte) :
    readByte (maskedWriteByte d i vb).data j =
      if j = i ∧ i ≤ 255 then (readByte d.data i &&& ~~~ readByte d.mask i) ||| (vb &&& readByte d.mask i)
      else readByte d.data j := by
  unfold maskedWriteByte
  by_cases hi : i ≤ 255 <;> by_cases hj : j = i <;> simp [hi, hj]

theorem maskedWriteByte_wf {d : DeviceRecord} (hd : d.wf) (i : Nat) (vb : Byte) : (maskedWriteByte d i vb).wf := by
  unfold maskedWriteByte
  split
  · exact ⟨writeByte_wf hd.1 (by omega) _, hd.2⟩
  · exact hd

@[simp] theorem cfgWriteLanes_mask (v : BitVec 32) (r n : Nat) (d : DeviceRecord) : (cfgWriteLanes v r n d).mask = d.mask := by
  induction n with
  | zero => rfl
  | succ n ih => simp [cfgWriteLanes, ih]

theorem cfgWriteLanes_wf (v : BitVec 32) (r n : Nat) {d : DeviceRecord} (hd : d.wf) : (cfgWriteLanes v r n d).wf := by
  induction n with
  | zero => exact hd
  | succ n ih => exact maskedWriteByte_wf ih _ _

/-- Everything the masked write engine does to the data bytes (spec R162, R164): the bytes in range and below 256 take the
lane under their mask, every other byte stays. -/
theorem readByte_cfgWriteLanes (v : BitVec 32) (r n : Nat) (d : DeviceRecord) (j : Nat) :
    readByte (cfgWriteLanes v r n d).data j =
      if r ≤ j ∧ j < r + n ∧ j ≤ 255 then
        (readByte d.data j &&& ~~~ readByte d.mask j) ||| (lane v (j - r) &&& readByte d.mask j)
      else readByte d.data j := by
  induction n with
  | zero =>
    have : ¬ (r ≤ j ∧ j < r + 0 ∧ j ≤ 255) := by omega
    rw [if_neg this]
    rfl
  | succ n ih =>
    simp only [cfgWriteLanes, readByte_maskedWriteByte, cfgWriteLanes_mask]
    by_cases hj : j = r + n ∧ r + n ≤ 255
    · have h1 : ¬ (r ≤ j ∧ j < r + n ∧ j ≤ 255) := by omega
      have h2 : r ≤ j ∧ j < r + (n + 1) ∧ j ≤ 255 := by omega
      have h3 : j - r = n := by omega
      rw [if_neg h1] at ih
      rw [if_pos hj, if_pos h2, h3, ← hj.1, ih]
    · rw [if_neg hj, ih]
      by_cases h : r ≤ j ∧ j < r + n ∧ j ≤ 255
      · rw [if_pos h, if_pos (by omega)]
      · rw [if_neg h, if_neg (by omega)]

theorem constructed_wf (vendor device : BitVec 16) : (constructed vendor device).wf := by
  constructor
  · unfold constructed
    refine writeByte_wf (writeByte_wf (writeByte_wf (writeByte_wf memory_nil_wf ?_ _) ?_ _) ?_ _) ?_ _ <;> decide
  · exact (by decide : Memory.wf (writeByte (writeByte [] 0x04 0x03) 0x05 0x04))

theorem customAfterRead_wf (h : Handle) (d : DeviceRecord) (r : BitVec 8) (w : Width) : (customAfterRead h d r w).wf :=
  ⟨memoryOf_wf _, memoryOf_wf _⟩

theorem customAfterWrite_wf (h : Handle) (d : DeviceRecord) (r : BitVec 8) (w : Width) (v : BitVec 32) :
    (customAfterWrite h d r w v).wf :=
  ⟨memoryOf_wf _, memoryOf_wf _⟩

theorem devset_wf {d : DeviceRecord} (hd : d.wf) (i : BitVec 8) (data mask : Byte) : (devset d i data mask).wf :=
  ⟨writeByte_wf hd.1 (i := i.toNat) i.isLt data, writeByte_wf hd.2 (i := i.toNat) i.isLt mask⟩

/-- Power-on has its memory, which lists nothing, in canonical form. -/
theorem powerOn_records_wf (p : Params) : ∀ e ∈ (State.powerOn p).devices, e.2.wf := by simp [State.powerOn]

end Sys2Proof.Machine
end

