-- ==== Sys2Proof/Laws/Ops.lean ====
section
/-! SUPPORT. What each shared operation can do, said once: the guards, the device store and the table after an update, the
two dispatches to a device, the routing, the fetch. -/

namespace Sys2Proof.Machine

open Sys2Proof

variable (s : State) (h h' : Handle) (d : DeviceRecord)

/-! ## The guards -/

/-- An operation that answers a next state was performed while the fatal flag was clear (spec R254). -/
theorem whenAlive_next {s t : State} {o : Host.Outcome State Fault Refusal} (hn : whenAlive s o = .next t) :
    s.fatal = false ∧ o = .next t := by
  unfold whenAlive at hn
  by_cases hf : s.fatal <;> simp_all

@[simp] theorem whenAlive_alive {s : State} (hf : s.fatal = false) (o : Host.Outcome State Fault Refusal) :
    whenAlive s o = o := by simp [whenAlive, hf]

@[simp] theorem whenAlive_fatal {s : State} (hf : s.fatal = true) (o : Host.Outcome State Fault Refusal) :
    whenAlive s o = .fault .afterFatal := by simp [whenAlive, hf]

/-- A guest access that answers a next state was claimed and performed, or was not claimed (spec R81). -/
theorem whenClaimed_next {dir : Dir} {w : Width} {port : BitVec 16} {s t : State}
    {o : Host.Outcome State Fault Refusal} (hn : whenClaimed dir w port s o = .next t) :
    s.fatal = false ∧ (s.init = true ∧ o = .next t ∨ s.init = false ∧ t = unclaimed dir w port s) := by
  obtain ⟨hf, hn⟩ := whenAlive_next hn
  refine ⟨hf, ?_⟩
  by_cases hi : s.init <;> simp_all

/-- A narrow access that answers a next state was not claimed, or was claimed under ZextReplace (spec R103 to R106). -/
theorem narrowAccess_next {dir : Dir} {w : Width} {s t : State} {o : Host.Outcome State Fault Refusal}
    (hn : narrowAccess dir w s o = .next t) :
    s.fatal = false ∧ (s.params.narrowAddr = .ignore ∧ t = unclaimed dir w addressPort s ∨
      s.params.narrowAddr = .zextReplace ∧ whenClaimed dir w addressPort s o = .next t) := by
  obtain ⟨hf, hn⟩ := whenAlive_next hn
  refine ⟨hf, ?_⟩
  cases hp : s.params.narrowAddr <;> simp_all

/-! ## The device store -/

@[simp] theorem deviceOf_setDevice_same : deviceOf (setDevice h d s) h = some d := mapGet_mapSet_same _ _ _

@[simp] theorem deviceOf_setDevice_other (hne : h' ≠ h) : deviceOf (setDevice h d s) h' = deviceOf s h' :=
  mapGet_mapSet_other _ _ _ _ hne

@[simp] theorem deviceOf_removeDevice_same : deviceOf (removeDevice h s) h = none := mapGet_mapErase_same _ _

@[simp] theorem deviceOf_removeDevice_other (hne : h' ≠ h) : deviceOf (removeDevice h s) h' = deviceOf s h' :=
  mapGet_mapErase_other _ _ _ hne

/-- Shutdown removes the registered records and keeps the others (spec R221). -/
theorem deviceOf_shutDown : deviceOf (shutDown s) h = if registered s h then none else deviceOf s h := by
  have := mapGet_filter_key s.devices h (fun k => !registered s k)
  by_cases hr : registered s h <;> simp_all [deviceOf]

@[simp] theorem deviceOf_respond (r : Response) : deviceOf (respond r s) h = deviceOf s h := rfl
@[simp] theorem deviceOf_countDraw : deviceOf (countDraw s) h = deviceOf s h := rfl
@[simp] theorem deviceOf_fillCell (b x : Nat) : deviceOf (fillCell b x h s) h' = deviceOf s h' := rfl
@[simp] theorem deviceOf_clearCell (k : Nat) : deviceOf (clearCell k s) h = deviceOf s h := rfl
@[simp] theorem deviceOf_issueHandle : deviceOf (issueHandle h s) h' = deviceOf s h' := rfl
@[simp] theorem deviceOf_writeLatch (v : BitVec 32) : deviceOf (writeLatch v s) h = deviceOf s h := rfl
@[simp] theorem deviceOf_doInit : deviceOf (doInit s) h = deviceOf s h := by simp [deviceOf]
@[simp] theorem deviceOf_unclaimed (dir : Dir) (w : Width) (p : BitVec 16) :
    deviceOf (unclaimed dir w p s) h = deviceOf s h := by simp [deviceOf]

/-! ## The table -/

/-- Two cells with slots below 32 have the same key only if they are the same cell. -/
theorem cellKey_inj {b x b' x' : Nat} (hx : x < 32) (hx' : x' < 32) (hk : cellKey b x = cellKey b' x') :
    b = b' ∧ x = x' := by
  unfold cellKey at hk; omega

/-- NSLOT is at most 32 (spec R6). -/
theorem Params.nslot_le (p : Params) : p.nslot ≤ 32 := by
  have := p.lastSlot.isLt; unfold Params.nslot; omega

/-- NBUS is at least 1 (spec R5). -/
theorem Params.nbus_pos (p : Params) : 0 < p.nbus := by unfold Params.nbus; omega

/-- NSLOT is at least 1 (spec R6). -/
theorem Params.nslot_pos (p : Params) : 0 < p.nslot := by unfold Params.nslot; omega

@[simp] theorem cellAt_fillCell_same (b x : Nat) : cellAt (fillCell b x h s) b x = some h := mapGet_mapSet_same _ _ _

theorem cellAt_fillCell_other {b x b' x' : Nat} (hx : x < 32) (hx' : x' < 32) (hne : b' ≠ b ∨ x' ≠ x) :
    cellAt (fillCell b x h s) b' x' = cellAt s b' x' := by
  refine mapGet_mapSet_other _ _ _ _ fun hk => ?_
  obtain ⟨h1, h2⟩ := cellKey_inj hx' hx hk
  exact hne.elim (· h1) (· h2)

@[simp] theorem cellAt_respond (r : Response) (b x : Nat) : cellAt (respond r s) b x = cellAt s b x := rfl
@[simp] theorem cellAt_setDevice (b x : Nat) : cellAt (setDevice h d s) b x = cellAt s b x := rfl
@[simp] theorem cellAt_doInit (b x : Nat) : cellAt (doInit s) b x = cellAt s b x := by simp [cellAt]

/-- A cell an unregistration finds is an entry that holds the handle (spec R196). -/
theorem cellOf_some {s : State} {h : Handle} {k : Nat} (hc : cellOf s h = some k) : (k, h) ∈ s.table := by
  unfold cellOf at hc
  cases hf : s.table.find? (fun e => e.2 = h) with
  | none => simp [hf] at hc
  | some e =>
    obtain ⟨a, b⟩ := e
    have h1 := List.mem_of_find?_eq_some hf
    have h2 := List.find?_some hf
    simp_all

/-- No cell is found exactly when the handle is in no cell. -/
theorem cellOf_none {s : State} {h : Handle} : cellOf s h = none ↔ registered s h = false := by
  simp [cellOf, registered, List.find?_eq_none]

/-! ## Routing and the dispatch to a device -/

/-- An absent target routes nowhere (spec R130, R251). -/
theorem route_absent {s : State} (off : BitVec 2) (ha : targetAbsent s) : route s off = .absent := by
  have hl : s.latch.getLsbD 31 = false ∨
      lookup s (s.latch.extractLsb' 16 8).toNat (s.latch.extractLsb' 11 5).toNat = none := by
    rcases ha with ha | ha | ha | ha
    · exact .inl ha
    · exact .inr (if_pos (.inl ha))
    · exact .inr (if_pos (.inr ha))
    · refine .inr ?_
      unfold lookup
      split
      · rfl
      · exact ha
  rcases hl with hl | hl
  · simp only [route, decodeLatch, hl, if_true]
  · simp only [route, decodeLatch, hl, ite_self]

/-- A latched address that reaches a device routes to it (spec R130). -/
theorem route_present {s : State} {h : Handle} (off : BitVec 2) (ht : targetIs s h) :
    route s off = .present h (decodeLatch s.latch off).reg := by
  obtain ⟨hen, hb, hx, hc⟩ := ht
  have hl : lookup s (s.latch.extractLsb' 16 8).toNat (s.latch.extractLsb' 11 5).toNat = some h := by
    unfold lookup
    rw [if_neg (by omega), hc]
  simp only [route, decodeLatch, hen, hl, Bool.true_eq_false, if_false]

/-- Every latched address reaches a device or none. -/
theorem target_cases (s : State) : targetAbsent s ∨ ∃ h, targetIs s h := by
  by_cases hen : s.latch.getLsbD 31 = true
  · by_cases hb : (s.latch.extractLsb' 16 8).toNat < s.params.nbus
    · by_cases hx : (s.latch.extractLsb' 11 5).toNat < s.params.nslot
      · cases hc : cellAt s (s.latch.extractLsb' 16 8).toNat (s.latch.extractLsb' 11 5).toNat with
        | none => exact .inl (.inr (.inr (.inr hc)))
        | some h => exact .inr ⟨h, hen, hb, hx, hc⟩
      · exact .inl (.inr (.inr (.inl (not_lt.mp hx))))
    · exact .inl (.inr (.inl (not_lt.mp hb)))
  · exact .inl (.inl (by simpa using hen))

/-- What DevRead can do (spec R137, R160, R168). -/
theorem devRead_next {h : Handle} {r : BitVec 8} {w : Width} {s t : State} (hn : devRead h r w s = .next t) :
    ∃ d, deviceOf s h = some d ∧
      (isCustom s h = true ∧ t = customRead h d r w s ∨ isCustom s h = false ∧ t = genericRead h d r w s) := by
  unfold devRead at hn
  split at hn
  · cases hn
  · next d hd =>
    refine ⟨d, hd, ?_⟩
    by_cases hc : isCustom s h <;> simp_all

/-- What DevWrite can do (spec R137, R160, R168). -/
theorem devWrite_next {h : Handle} {r : BitVec 8} {w : Width} {v : BitVec 32} {s t : State}
    (hn : devWrite h r w v s = .next t) :
    ∃ d, deviceOf s h = some d ∧
      t = respond .done
        (setDevice h (if isCustom s h then customAfterWrite h d r w v else cfgWrite d r w v) s) := by
  unfold devWrite at hn
  split at hn
  · cases hn
  · next d hd => exact ⟨d, hd, (Host.Outcome.next.inj hn).symm⟩

/-! ## The fetch -/

/-- What a step can do: it waits, runs a decoded instruction, or answers a transaction at a foreign port. -/
theorem step_cases {s t : State} (hn : step s = .next t) :
    s.fatal = false ∧
      (s.inbox = [] ∧ t = s ∨
        ∃ p rest, s.inbox = p :: rest ∧
          ((∃ i, decode p = .instr i ∧ exec i { s with inbox := rest } = .next t) ∨
            ∃ dir w port, decode p = .foreign dir w port ∧ t = unclaimed dir w port { s with inbox := rest })) := by
  unfold step fetch at hn
  by_cases hf : s.fatal
  · simp [hf] at hn
  · refine ⟨by simpa using hf, ?_⟩
    cases hin : s.inbox with
    | nil => simp_all
    | cons p rest =>
      refine .inr ⟨p, rest, rfl, ?_⟩
      cases hd : decode p with
      | instr i => exact .inl ⟨i, rfl, by simpa [hf, hin, hd] using hn⟩
      | foreign dir w port => exact .inr ⟨dir, w, port, rfl, by simpa [hf, hin, hd, eq_comm] using hn⟩
      | reserved r => simp [hf, hin, hd] at hn

end Sys2Proof.Machine
end

