-- ==== Sys2Proof/Laws/PerInstr.lean ====
section
/-! SUPPORT. Per operation: the descriptor the encoder writes selects the operation's own row of the opcode table (R79). -/

namespace Sys2Proof.Laws.EncodesToItsRow

open Sys2Proof

/-- The encoder's descriptor selects the operation's row. -/
def Statement (i : Instr) : Prop := (rowOf i).selects (encode i).descriptor

theorem caRd32 : Statement .caRd32 := by unfold Statement; decide
theorem caWr32 (v : BitVec 32) : Statement (.caWr32 v) := (by decide : (rowOf (.caWr32 0)).selects (encode (.caWr32 0)).descriptor)
theorem caRd8 : Statement .caRd8 := by unfold Statement; decide
theorem caRd16 : Statement .caRd16 := by unfold Statement; decide
theorem caWr8 (v : BitVec 8) : Statement (.caWr8 v) := (by decide : (rowOf (.caWr8 0)).selects (encode (.caWr8 0)).descriptor)
theorem caWr16 (v : BitVec 16) : Statement (.caWr16 v) := (by decide : (rowOf (.caWr16 0)).selects (encode (.caWr16 0)).descriptor)
theorem cdRd8 (off : BitVec 2) : Statement (.cdRd8 off) := by unfold Statement; revert off; decide
theorem cdRd16 (off : BitVec 2) : Statement (.cdRd16 off) := by unfold Statement; revert off; decide
theorem cdRd32 (off : BitVec 2) : Statement (.cdRd32 off) := by unfold Statement; revert off; decide

/-- The data-port rows fix every bit of the descriptor but the offset. -/
theorem dataPort_selects (w : Width) (off : BitVec 2) :
    guestDescriptor .wr w (dataPort off) &&& 0xFFFFFC = guestDescriptor .wr w (dataPort 0) := by
  revert off; cases w <;> decide

theorem cdWr8 (off : BitVec 2) (v : BitVec 8) : Statement (.cdWr8 off v) := dataPort_selects .w1 off
theorem cdWr16 (off : BitVec 2) (v : BitVec 16) : Statement (.cdWr16 off v) := dataPort_selects .w2 off
theorem cdWr32 (off : BitVec 2) (v : BitVec 32) : Statement (.cdWr32 off v) := dataPort_selects .w4 off

/-- The device rows fix every bit of the descriptor but the size and the register index. -/
theorem device_selects (dir : Dir) (w : Width) (reg : BitVec 8) :
    deviceDescriptor dir w reg &&& 0xF9FF00 = deviceDescriptor dir .w1 0 := by
  revert reg
  cases dir <;> cases w <;> decide

theorem devRd (h : Handle) (w : Width) (reg : BitVec 8) : Statement (.devRd h w reg) := device_selects .rd w reg
theorem devWr (h : Handle) (w : Width) (reg : BitVec 8) (v : BitVec 32) : Statement (.devWr h w reg v) :=
  device_selects .wr w reg

theorem hInit : Statement .hInit := by unfold Statement; decide
theorem hShutdown : Statement .hShutdown := by unfold Statement; decide
theorem hRegister (h : Handle) (bus slot : Option Nat) : Statement (.hRegister h bus slot) :=
  (by decide : (hostDescriptor 2) &&& 0xFFFFFF = 0x820000)
theorem hUnregister (h : Handle) : Statement (.hUnregister h) := (by decide : (hostDescriptor 3) &&& 0xFFFFFF = 0x830000)
theorem hIsInit : Statement .hIsInit := by unfold Statement; decide
theorem hCreate (vendor device : BitVec 16) : Statement (.hCreate vendor device) :=
  (by decide : (hostDescriptor 5) &&& 0xFFFFFF = 0x850000)
theorem hDevset (h : Handle) (index data mask : BitVec 8) : Statement (.hDevset h index data mask) :=
  (by decide : (hostDescriptor 6) &&& 0xFFFFFF = 0x860000)
theorem hDestroy (h : Handle) : Statement (.hDestroy h) := (by decide : (hostDescriptor 7) &&& 0xFFFFFF = 0x870000)

end Sys2Proof.Laws.EncodesToItsRow
end

