-- ==== Sys2Proof/Machine/Listing.lean ====
section
/-! DEFINITION. The one-line assembly form of an operation (spec R86). It is notation: no step reads it. -/

namespace Sys2Proof.Machine

open Sys2Proof

/-- A number as a hexadecimal literal (spec R12). -/
def hexText (n : Nat) : String := "0x" ++ String.ofList ((Nat.toDigits 16 n).map Char.toUpper)

/-- The number of bits of a width, as the mnemonics write it (spec R86). -/
def widthText : Width → String
  | .w1 => "8"
  | .w2 => "16"
  | .w4 => "32"

/-- The name of a result (spec R86). -/
def resultText (name : String) : String := " -> " ++ name

/-- An optional placement of H_REGISTER (spec R86). -/
def placementText (key : String) : Option Nat → String
  | none => ""
  | some n => ", " ++ key ++ "=" ++ toString n

/-- The assembly line of an operation; `name` names its result, where it has one (spec R86). -/
def asmText (name : String) : Instr → String
  | .caRd32 => "CA_RD32" ++ resultText name
  | .caWr32 v => "CA_WR32 " ++ hexText v.toNat
  | .caRd8 => "CA_RD8" ++ resultText name
  | .caRd16 => "CA_RD16" ++ resultText name
  | .caWr8 v => "CA_WR8 " ++ hexText v.toNat
  | .caWr16 v => "CA_WR16 " ++ hexText v.toNat
  | .cdRd8 off => "CD_RD8 " ++ hexText (dataPort off).toNat ++ resultText name
  | .cdRd16 off => "CD_RD16 " ++ hexText (dataPort off).toNat ++ resultText name
  | .cdRd32 off => "CD_RD32 " ++ hexText (dataPort off).toNat ++ resultText name
  | .cdWr8 off v => "CD_WR8 " ++ hexText (dataPort off).toNat ++ ", " ++ hexText v.toNat
  | .cdWr16 off v => "CD_WR16 " ++ hexText (dataPort off).toNat ++ ", " ++ hexText v.toNat
  | .cdWr32 off v => "CD_WR32 " ++ hexText (dataPort off).toNat ++ ", " ++ hexText v.toNat
  | .devRd h w reg => "DEV_RD." ++ widthText w ++ " " ++ toString h ++ ", " ++ hexText reg.toNat ++ resultText name
  | .devWr h w reg v =>
    "DEV_WR." ++ widthText w ++ " " ++ toString h ++ ", " ++ hexText reg.toNat ++ ", " ++ hexText v.toNat
  | .hInit => "H_INIT"
  | .hShutdown => "H_SHUTDOWN"
  | .hRegister h b s =>
    "H_REGISTER " ++ toString h ++ placementText "bus" b ++ placementText "slot" s ++ resultText name
  | .hUnregister h => "H_UNREGISTER " ++ toString h ++ resultText name
  | .hIsInit => "H_IS_INIT" ++ resultText name
  | .hCreate v d => "H_CREATE " ++ hexText v.toNat ++ ", " ++ hexText d.toNat ++ resultText name
  | .hDevset h i d m =>
    "H_DEVSET " ++ toString h ++ ", " ++ hexText i.toNat ++ ", " ++ hexText d.toNat ++ ", " ++ hexText m.toNat
  | .hDestroy h => "H_DESTROY " ++ toString h

end Sys2Proof.Machine
end

