-- ==== Sys2Proof/Tests/Slice0.lean ====
section
/-! SUPPORT. Tests: the ill-formed terms WellFormed refuses, one descriptor per constructor written out from the formats of
30_encoding, small steps whose results are the vectors of 95_test_vectors (named in each comment), and for every obligation
with hypotheses a state and operands that meet them. -/

namespace Sys2Proof.Tests

open Sys2Proof Sys2Proof.Machine

/-! ## Well-formedness -/

/-- R162: a value with a bit above its 8 * w bits is no value of that width. -/
theorem test_wellFormed_refuses_wide_byte : (Instr.devWr 1 .w1 0 0x100).wellFormed = false := by decide
theorem test_wellFormed_refuses_wide_half : (Instr.devWr 1 .w2 0 0x10000).wellFormed = false := by decide
theorem test_wellFormed_accepts_top_byte : (Instr.devWr 1 .w1 0 0xFF).wellFormed = true := by decide
theorem test_wellFormed_accepts_full_word : (Instr.devWr 1 .w4 0 0xFFFFFFFF).wellFormed = true := by decide

/-! ## Decoding: iface ++ rsv ++ size ++ dir ++ port (format G), iface ++ rsv ++ size ++ dir ++ rsv ++ reg (D),
iface ++ rsv ++ hop ++ rsv (H), written out bit by bit (R71, R73, R74) -/

theorem test_decode_caRd32 : decode ⟨0b00_000_10_0_0000110011111000, {}⟩ = .instr .caRd32 := by decide
theorem test_decode_caWr32 :
    decode ⟨0b00_000_10_1_0000110011111000, { value := 0x80000804 }⟩ = .instr (.caWr32 0x80000804) := by decide
theorem test_decode_caRd8 : decode ⟨0b00_000_00_0_0000110011111000, {}⟩ = .instr .caRd8 := by decide
theorem test_decode_caRd16 : decode ⟨0b00_000_01_0_0000110011111000, {}⟩ = .instr .caRd16 := by decide
theorem test_decode_caWr8 :
    decode ⟨0b00_000_00_1_0000110011111000, { value := 0x12 }⟩ = .instr (.caWr8 0x12) := by decide
theorem test_decode_caWr16 :
    decode ⟨0b00_000_01_1_0000110011111000, { value := 0x0804 }⟩ = .instr (.caWr16 0x0804) := by decide
theorem test_decode_cdRd8 : decode ⟨0b00_000_00_0_0000110011111101, {}⟩ = .instr (.cdRd8 1) := by decide
theorem test_decode_cdRd16 : decode ⟨0b00_000_01_0_0000110011111110, {}⟩ = .instr (.cdRd16 2) := by decide
theorem test_decode_cdRd32 : decode ⟨0b00_000_10_0_0000110011111111, {}⟩ = .instr (.cdRd32 3) := by decide
theorem test_decode_cdWr8 :
    decode ⟨0b00_000_00_1_0000110011111101, { value := 0xAB }⟩ = .instr (.cdWr8 1 0xAB) := by decide
theorem test_decode_cdWr16 :
    decode ⟨0b00_000_01_1_0000110011111110, { value := 0xBEEF }⟩ = .instr (.cdWr16 2 0xBEEF) := by decide
theorem test_decode_cdWr32 :
    decode ⟨0b00_000_10_1_0000110011111100, { value := 0xDDCCBBAA }⟩ = .instr (.cdWr32 0 0xDDCCBBAA) := by decide
theorem test_decode_devRd :
    decode ⟨0b01_000_01_0_00000000_11111110, { handle := 5 }⟩ = .instr (.devRd 5 .w2 0xFE) := by decide
theorem test_decode_devWr :
    decode ⟨0b01_000_10_1_00000000_00000100, { handle := 5, value := 7 }⟩ = .instr (.devWr 5 .w4 4 7) := by decide
theorem test_decode_hInit : decode ⟨0b10_000_000_0000000000000000, {}⟩ = .instr .hInit := by decide
theorem test_decode_hShutdown : decode ⟨0b10_000_001_0000000000000000, {}⟩ = .instr .hShutdown := by decide
theorem test_decode_hRegister :
    decode ⟨0b10_000_010_0000000000000000, { handle := 5, slot := some 2 }⟩ = .instr (.hRegister 5 none (some 2)) := by
  decide
theorem test_decode_hUnregister :
    decode ⟨0b10_000_011_0000000000000000, { handle := 5 }⟩ = .instr (.hUnregister 5) := by decide
theorem test_decode_hIsInit : decode ⟨0b10_000_100_0000000000000000, {}⟩ = .instr .hIsInit := by decide
theorem test_decode_hCreate :
    decode ⟨0b10_000_101_0000000000000000, { vendor := 0x1234, device := 0x5678 }⟩ = .instr (.hCreate 0x1234 0x5678) := by
  decide
theorem test_decode_hDevset :
    decode ⟨0b10_000_110_0000000000000000, { handle := 5, index := 0x10, data := 0xA5, mask := 0x0F }⟩ =
      .instr (.hDevset 5 0x10 0xA5 0x0F) := by decide
theorem test_decode_hDestroy : decode ⟨0b10_000_111_0000000000000000, { handle := 5 }⟩ = .instr (.hDestroy 5) := by decide

/-- V-AD-14 and R82: the reserved spellings. -/
theorem test_decode_reserved :
    decode ⟨0x070CF8, {}⟩ = .reserved .size ∧ decode ⟨0x460000, {}⟩ = .reserved .size ∧
    decode ⟨0xC00000, {}⟩ = .reserved .interface ∧ decode ⟨0x080CF8, {}⟩ = .reserved .bits ∧
    decode ⟨0x400100, {}⟩ = .reserved .bits ∧ decode ⟨0x800001, {}⟩ = .reserved .bits := by decide
/-- R80: ports 0xCF9 to 0xCFB and 0xD00 are foreign. -/
theorem test_decode_foreign :
    decode ⟨0x000CF9, {}⟩ = .foreign .rd .w1 0xCF9 ∧ decode ⟨0x050CFB, {}⟩ = .foreign .wr .w4 0xCFB ∧
    decode ⟨0x020D00, {}⟩ = .foreign .rd .w2 0xD00 ∧ decode ⟨0x040CF7, {}⟩ = .foreign .rd .w4 0xCF7 := by decide
/-- The host's reading of a table word. -/
theorem test_decodeTableWord :
    decodeTableWord 24 0x040CF8 = some .caRd32 ∧ decodeTableWord 24 0x860000 = some (.hDevset 0 0 0 0) ∧
    decodeTableWord 24 0xFFFFFF = none := by decide

/-! ## Addresses -/

/-- V-AD-7: Decode of 0x80ABCDEF at offset 2. -/
theorem test_decodeLatch :
    decodeLatch 0x80ABCDEF 2 = { en := true, bus := 0xAB, slot := 0x19, fn := 5, reg := 0xEE } := by decide
/-- V-AD-9: Addr(1, 3, 2, 0x47). -/
theorem test_composeAddr : composeAddr 1 3 2 0x47 = 0x80011A44 := by decide
/-- R86 and R87: the listing of an expansion. -/
theorem test_asmText :
    (cfgRdExpansion .w2 1 3 2 0x47).map (asmText "x") = ["CA_WR32 0x80011A44", "CD_RD16 0xCFF -> x"] := by decide

/-! ## States -/

/-- Device A of the vectors' common setup. -/
def devA : DeviceRecord := constructed 0x1234 0x5678
/-- Device B of the vectors' common setup. -/
def devB : DeviceRecord := constructed 0xABCD 0x0001

/-- The common setup of 95_test_vectors 2.2: A (handle 1) at (0, 0), B (handle 2) at (0, 2), init = true. -/
def demo : State :=
  { State.reset with
    init := true
    table := [(cellKey 0 0, 1), (cellKey 0 2, 2)]
    devices := [(1, devA), (2, devB)]
    issued := [2, 1] }

/-- `demo` with an address latched. -/
def demoAt (l : BitVec 32) : State := { demo with latch := l }

/-- `demo` with a third, host-owned device, handle 3. -/
def demo3 : State := { demo with devices := [(1, devA), (2, devB), (3, devA)], issued := [3, 2, 1] }

/-- `demo` with A custom. -/
def demoCustom (l : BitVec 32) : State :=
  { demo with latch := l, params := { Params.standard with customHandles := [1] } }

/-- `demo` under another NARROW_ADDR. -/
def demoNarrow (n : NarrowAddr) : State :=
  { demo with latch := 0x80000804, params := { Params.standard with narrowAddr := n } }

/-- One cell only (NBUS = NSLOT = 1), held by A, with a host-owned B. -/
def demoTiny : State :=
  { demo with
    params := { Params.standard with lastBus := 0, lastSlot := 0 }
    table := [(cellKey 0 0, 1)] }

/-- `demo` with A's top dword writable and holding 11 22 33 44. -/
def demoTop (l : BitVec 32) : State :=
  { demo with
    latch := l
    devices :=
      [(1, { data := [(0xFC, 0x11), (0xFD, 0x22), (0xFE, 0x33), (0xFF, 0x44)],
             mask := [(0xFC, 0xFF), (0xFD, 0xFF), (0xFE, 0xFF), (0xFF, 0xFF)] }), (2, devB)] }

/-- The state an outcome goes on to. -/
def nextOf : Host.Outcome State Fault Refusal → Option State
  | .next t => some t
  | .fault _ => none
  | .refused _ => none

/-- The newest result after an outcome. -/
def resultOf (o : Host.Outcome State Fault Refusal) : Option Response := (nextOf o).bind fun t => t.outbox.head?

/-- The reason an outcome refuses. -/
def refusalOfOutcome : Host.Outcome State Fault Refusal → Option Refusal
  | .next _ => none
  | .fault _ => none
  | .refused r => some r

/-- A data byte of a device after an outcome. -/
def byteAfter (o : Host.Outcome State Fault Refusal) (h : Handle) (i : Nat) : Option Byte :=
  (nextOf o).bind fun t => (deviceOf t h).map fun d => readByte d.data i

/-! ## Steps -/

/-- V-AD-1. -/
theorem test_caWr32_stores : (nextOf (exec (.caWr32 0x80000804) demo)).map (·.latch) = some 0x80000804 := by decide
/-- V-AD-5. -/
theorem test_caWr32_unclaimed :
    (nextOf (exec (.caWr32 0x80000000) State.reset)).map (·.latch) = some 0 ∧
      resultOf (exec (.caWr32 0x80000000) State.reset) = some .notClaimed := by decide
/-- V-AD-2. -/
theorem test_caRd32_verbatim : resultOf (exec .caRd32 (demoAt 0xFF0007FF)) = some (.data (.b32 0xFF0007FF)) := by decide
/-- V-AD-12. -/
theorem test_caRd8_low_byte : resultOf (exec .caRd8 (demoNarrow .zextReplace)) = some (.data (.b8 0x04)) := by decide
/-- V-AD-12. -/
theorem test_caRd16_low_half : resultOf (exec .caRd16 (demoNarrow .zextReplace)) = some (.data (.b16 0x0804)) := by decide
/-- V-AD-11. -/
theorem test_caWr8_zext : (nextOf (exec (.caWr8 0x12) (demoNarrow .zextReplace))).map (·.latch) = some 0x12 := by decide
/-- V-AD-10. -/
theorem test_caWr8_refused : refusalOfOutcome (exec (.caWr8 0x12) demo) = some .narrowAddressAccess := by decide
/-- V-AD-13. -/
theorem test_caWr16_ignored :
    (nextOf (exec (.caWr16 0xFFFF) (demoNarrow .ignore))).map (·.latch) = some 0x80000804 := by decide
/-- R104's example. -/
theorem test_caWr16_zext : (nextOf (exec (.caWr16 0x0804) (demoNarrow .zextReplace))).map (·.latch) = some 0x804 := by
  decide
/-- V-DP-2c. -/
theorem test_cdRd8_byte : resultOf (exec (.cdRd8 1) (demoAt 0x80000000)) = some (.data (.b8 0x12)) := by decide
/-- V-DP-1. -/
theorem test_cdRd8_disabled : resultOf (exec (.cdRd8 0) (demoAt 0)) = some (.data (.b8 0xFF)) := by decide
/-- V-DP-2f: the bytes 3 and 4, across the dword. -/
theorem test_cdRd16_crosses : resultOf (exec (.cdRd16 3) (demoAt 0x80000000)) = some (.data (.b16 0x0056)) := by decide
/-- V-DP-5: slot 4 is outside the table. -/
theorem test_cdRd16_outside : resultOf (exec (.cdRd16 0) (demoAt 0x80002000)) = some (.data (.b16 0xFFFF)) := by decide
/-- V-DP-2e. -/
theorem test_cdRd32_unaligned : resultOf (exec (.cdRd32 1) (demoAt 0x80000000)) = some (.data (.b32 0x00567812)) := by
  decide
/-- V-DP-3: B at slot 2. -/
theorem test_cdRd32_slot2 : resultOf (exec (.cdRd32 0) (demoAt 0x80001000)) = some (.data (.b32 0x0001ABCD)) := by decide
/-- V-DP-9. -/
theorem test_cdWr8_masked : byteAfter (exec (.cdWr8 0 0xFF) (demoAt 0x80000004)) 1 4 = some 0x03 := by decide
/-- V-DP-8. -/
theorem test_cdWr8_disabled : byteAfter (exec (.cdWr8 0 0xFF) (demoAt 0x00000004)) 1 4 = some 0x00 := by decide
/-- V-DP-10: the byte 5 keeps interrupt disable only. -/
theorem test_cdWr16_masked : byteAfter (exec (.cdWr16 0 0xFFFF) (demoAt 0x80000004)) 1 5 = some 0x04 := by decide
/-- P4 line 3: only byte 0xFF is written, with the low byte of the value. -/
theorem test_cdWr32_clipped :
    byteAfter (exec (.cdWr32 3 0x99887766) (demoTop 0x800000FC)) 1 0xFF = some 0x66 ∧
      byteAfter (exec (.cdWr32 3 0x99887766) (demoTop 0x800000FC)) 1 0x00 = some 0x00 := by decide
/-- V-DP-11: the IDs are read-only. -/
theorem test_cdWr32_ids : byteAfter (exec (.cdWr32 0 0) (demoAt 0x80000000)) 1 0 = some 0x34 := by decide
/-- V-CS-4. -/
theorem test_devRd_ids : resultOf (exec (.devRd 1 .w4 0) demo) = some (.data (.b32 0x56781234)) := by decide
/-- V-CS-11. -/
theorem test_devRd_no_device : refusalOfOutcome (exec (.devRd 9 .w1 0) demo) = some .noDevice := by decide
/-- V-CS-2. -/
theorem test_devWr_masked :
    byteAfter (exec (.devWr 1 .w2 4 0xFFFF) demo) 1 4 = some 0x03 ∧
      byteAfter (exec (.devWr 1 .w2 4 0xFFFF) demo) 1 5 = some 0x04 := by decide
/-- E3 and V-CS-6. -/
theorem test_devWr_clipped :
    byteAfter (exec (.devWr 1 .w4 0xFE 0x11223344) (demoTop 0)) 1 0xFE = some 0x44 ∧
      byteAfter (exec (.devWr 1 .w4 0xFE 0x11223344) (demoTop 0)) 1 0xFF = some 0x33 := by decide
/-- V-LC-3. -/
theorem test_hInit_keeps_latch :
    (nextOf (exec .hInit (demoAt 0x80000004))).map (fun t => (t.init, t.latch)) = some (true, 0x80000004) := by decide
/-- V-LC-4: the registered devices go, the host-owned one stays. -/
theorem test_hShutdown_destroys :
    (nextOf (exec .hShutdown { demo3 with latch := 0x80000004 })).map (fun t => (t.init, t.latch, t.table, t.devices.map Prod.fst)) =
      some (false, 0, [], [3]) := by decide
/-- V-REG-16: slot 1 given, found on bus 0. -/
theorem test_hRegister_slot : resultOf (exec (.hRegister 3 none (some 1)) demo3) = some (.registered 1) := by decide
/-- V-REG-11: an explicit collision. -/
theorem test_hRegister_collision :
    (nextOf (exec (.hRegister 3 (some 0) (some 2)) demo3)).map (fun t => (t.fatal, t.table, t.outbox)) =
      some (true, [(0, 1), (2, 2)], []) := by decide
/-- V-REG-13. -/
theorem test_hUnregister_frees :
    (nextOf (exec (.hUnregister 1) demo)).map (fun t => (t.table, t.devices.map Prod.fst)) = some ([(2, 2)], [1, 2]) := by
  decide
/-- V-REG-13, repeated. -/
theorem test_hUnregister_absent : resultOf (exec (.hUnregister 3) demo3) = some (.bool false) := by decide
/-- V-LC-1. -/
theorem test_hIsInit_reset : resultOf (exec .hIsInit State.reset) = some (.bool false) := by decide
/-- V-LC-8, with the allocator proposing 7. -/
theorem test_hCreate_defaults :
    (nextOf (exec (.hCreate 0x1234 0x5678) { demo with handleSupply := [7] })).bind (fun t => deviceOf t 7) =
      some { data := [(0, 0x34), (1, 0x12), (2, 0x78), (3, 0x56)], mask := [(4, 0x03), (5, 0x04)] } := by decide
/-- R223: a proposed handle that was returned before is not returned again. -/
theorem test_hCreate_fresh :
    resultOf (exec (.hCreate 0 0) { demo with handleSupply := [2] }) = some (.handle 3) := by decide
/-- V-CS-10: device-set bypasses the mask. -/
theorem test_hDevset_unmasked : byteAfter (exec (.hDevset 1 0x00 0xFF 0x00) demo) 1 0 = some 0xFF := by decide
/-- V-LC-6: a registered device is not destroyed. -/
theorem test_hDestroy_registered : refusalOfOutcome (exec (.hDestroy 1) demo) = some .destroyRegistered := by decide
theorem test_hDestroy_owned :
    (nextOf (exec (.hDestroy 3) demo3)).map (fun t => t.devices.map Prod.fst) = some [1, 2] := by decide
/-- V-LC-9: no step after the fatal condition. -/
theorem test_fatal_stops : nextOf (step { demo with fatal := true }) = none := by decide
/-- The host's placing of a descriptor runs it as the next operation. -/
theorem test_withFetchWord_runs :
    resultOf (step (State.reset.withFetchWord 24 0x800000)) = some .done ∧
      (nextOf (step (State.reset.withFetchWord 24 0x800000))).map (·.init) = some true := by decide
/-- V-AD-15: a read at port 0xCFA is answered, and leaves the latch. -/
theorem test_foreign_port :
    (nextOf (step { demoAt 0x80000004 with inbox := [⟨0x040CFA, {}⟩] })).map (fun t => (t.latch, t.draws, t.inbox)) =
      some (0x80000004, 1, []) := by decide

/-! ## Witnesses: the hypotheses of each obligation can be met -/

theorem witness_demo_inv : demo.Inv := by
  constructor
  case cellsInTable =>
    intro e he
    rcases List.mem_cons.mp he with rfl | he
    · exact ⟨0, 0, by decide, by decide, by decide⟩
    · rcases List.mem_cons.mp he with rfl | he
      · exact ⟨0, 2, by decide, by decide, by decide⟩
      · cases he
  all_goals decide

theorem witness_DecodeOfEncodeIsTheOperation : (Instr.devWr 1 .w1 0xFF 0xFF).wellFormed = true := by decide
theorem witness_DecodedOperationHasThatDescriptor :
    decode ⟨0x4500FE, { handle := 7, value := 1 }⟩ = .instr (.devWr 7 .w4 0xFE 1) := by decide
theorem witness_OpcodeRowsAreDisjoint :
    (rowOf (.cdRd8 0)).selects 0x000CFF ∧ (rowOf (.cdRd8 3)).selects 0x000CFF := by decide
theorem witness_DecoderFollowsTheOpcodeTable :
    decode ⟨0x860000, {}⟩ = .instr (.hDevset 0 0 0 0) ∧ (rowOf (.hDevset 0 0 0 0)).selects 0x860000 ∧
      ¬((0x860000 : BitVec 24).extractLsb' 22 2 = 1 ∧ (0x860000 : BitVec 24).extractLsb' 17 2 = 3) := by decide
theorem witness_ReservedDescriptorsAreRefused :
    demo.fatal = false ∧ { demo with inbox := [⟨0xFFFFFF, {}⟩] }.inbox = [⟨0xFFFFFF, {}⟩] ∧
      (0xFFFFFF : BitVec 24).extractLsb' 22 2 = 3 ∧
      (0x080000 : BitVec 24).extractLsb' 22 2 ≠ 3 ∧ (0x080000 : BitVec 24).extractLsb' 19 3 ≠ 0 ∧
      (0x800001 : BitVec 24).extractLsb' 22 2 = 2 ∧ (0x800001 : BitVec 24).extractLsb' 19 3 = 0 ∧
      (0x800001 : BitVec 24).extractLsb' 0 16 ≠ 0 ∧
      (0x460100 : BitVec 24).extractLsb' 22 2 = 1 ∧ (0x460100 : BitVec 24).extractLsb' 19 3 = 0 ∧
      (0x460100 : BitVec 24).extractLsb' 17 2 = 3 ∧
      (0x440100 : BitVec 24).extractLsb' 22 2 = 1 ∧ (0x440100 : BitVec 24).extractLsb' 19 3 = 0 ∧
      (0x440100 : BitVec 24).extractLsb' 17 2 ≠ 3 ∧ (0x440100 : BitVec 24).extractLsb' 8 8 ≠ 0 := by decide
theorem witness_StepRunsTheDecodedOperation :
    { demo with inbox := [⟨0x840000, {}⟩] }.fatal = false ∧ decode ⟨0x840000, {}⟩ = .instr .hIsInit := by decide
theorem witness_StepDoesNotClaimForeignPorts :
    (0xCFB : BitVec 16) ≠ 0xCF8 ∧ (0xCFB : BitVec 16).toNat < 0xCFC ∧ (0xD00 : BitVec 16) ≠ 0xCF8 ∧
      0xCFF < (0xD00 : BitVec 16).toNat ∧
      { demo with inbox := [⟨guestDescriptor .rd .w4 0xCFB, {}⟩] }.inbox = [⟨guestDescriptor .rd .w4 0xCFB, {}⟩] ∧
      { demo with inbox := [⟨guestDescriptor .wr .w1 0xD00, {}⟩] }.inbox = [⟨guestDescriptor .wr .w1 0xD00, {}⟩] := by
  decide
theorem witness_NothingRunsAfterFatal : { demo with fatal := true }.fatal = true := by decide
theorem witness_StepWaitsWithNothingPresented : State.reset.fatal = false ∧ State.reset.inbox = [] := by decide
theorem witness_StepKeepsParametersAndHistory : (nextOf (step demo)).isSome = true := by decide
theorem witness_CaWr32ReplacesTheLatch :
    demo.fatal = false ∧ demo.init = true ∧ State.reset.fatal = false ∧ State.reset.init = false := by decide
theorem witness_CaRd32ReturnsTheLatch :
    demo.fatal = false ∧ demo.init = true ∧ State.reset.fatal = false ∧ State.reset.init = false := by decide
theorem witness_NarrowAddressWritesFollowTheParameter :
    (demoNarrow .refuse).params.narrowAddr = .refuse ∧ (demoNarrow .ignore).params.narrowAddr = .ignore ∧
      (demoNarrow .zextReplace).params.narrowAddr = .zextReplace ∧ (demoNarrow .zextReplace).init = true ∧
      { demoNarrow .zextReplace with init := false }.init = false ∧ (demoNarrow .refuse).fatal = false := by decide
theorem witness_NarrowAddressReadsFollowTheParameter :
    (demoNarrow .refuse).params.narrowAddr = .refuse ∧ (demoNarrow .ignore).params.narrowAddr = .ignore ∧
      (demoNarrow .zextReplace).params.narrowAddr = .zextReplace ∧ (demoNarrow .zextReplace).init = true ∧
      (demoNarrow .zextReplace).fatal = false := by decide
theorem witness_GuestIsNotClaimedBeforeInit :
    State.reset.fatal = false ∧ State.reset.init = false ∧ isNarrow (.cdRd32 0) = false ∧
      guestAccess (.cdRd32 0) = some (.rd, .w4, 0xCFC) ∧ guestAccess (.cdWr8 3 0) = some (.wr, .w1, 0xCFF) := by decide
theorem witness_LatchPersistsUntilOverwritten :
    (nextOf (exec (.cdRd32 0) demo)).isSome = true ∧ (∀ v, Instr.cdRd32 0 ≠ .caWr32 v) ∧ Instr.cdRd32 0 ≠ .hShutdown ∧
      (∀ v, Instr.cdRd32 0 ≠ .caWr8 v) ∧ (∀ v, Instr.cdRd32 0 ≠ .caWr16 v) :=
  ⟨by decide, fun _ => by simp, by simp, fun _ => by simp, fun _ => by simp⟩
theorem witness_DecodeTakesTheLatchFields : (0xFF000003 : BitVec 32) &&& 0x80FFFFFC = 0x80000000 &&& 0x80FFFFFC := by decide
theorem witness_targetAbsent :
    targetAbsent (demoAt 0x00000000) ∧ targetAbsent (demoAt 0x80020000) ∧ targetAbsent (demoAt 0x80002000) ∧
      targetAbsent (demoAt 0x80000800) :=
  ⟨.inl (by decide), .inr (.inl (by decide)), .inr (.inr (.inl (by decide))), .inr (.inr (.inr (by decide)))⟩
theorem witness_AbsentTargetReadsAllOnes : (demoAt 0).fatal = false ∧ (demoAt 0).init = true ∧ targetAbsent (demoAt 0) :=
  ⟨by decide, by decide, .inl (by decide)⟩
theorem witness_AbsentTargetWritesNothing :
    (demoAt 0x80000800).fatal = false ∧ (demoAt 0x80000800).init = true ∧ targetAbsent (demoAt 0x80000800) :=
  ⟨by decide, by decide, witness_targetAbsent.2.2.2⟩
theorem witness_DataPortReadsReturnStoredBytes :
    (demoAt 0x800000FC).fatal = false ∧ (demoAt 0x800000FC).init = true ∧ targetIs (demoAt 0x800000FC) 1 ∧
      deviceOf (demoAt 0x800000FC) 1 = some devA ∧ isCustom (demoAt 0x800000FC) 1 = false ∧
      255 = registerIndex (demoAt 0x800000FC).latch 3 := by
  refine ⟨by decide, by decide, ⟨by decide, by decide, by decide, by decide⟩, by decide, by decide, by decide⟩
theorem witness_DataPortWritesObeyTheMask :
    (demoAt 0x80000004).fatal = false ∧ (demoAt 0x80000004).init = true ∧ targetIs (demoAt 0x80000004) 1 ∧
      deviceOf (demoAt 0x80000004) 1 = some devA ∧ isCustom (demoAt 0x80000004) 1 = false ∧
      4 = registerIndex (demoAt 0x80000004).latch 0 := by
  refine ⟨by decide, by decide, ⟨by decide, by decide, by decide, by decide⟩, by decide, by decide, by decide⟩
theorem witness_FunctionNumberSelectsNothing :
    (0x80000700 : BitVec 32) &&& 0x80FFF8FC = (demoAt 0x80000000).latch &&& 0x80FFF8FC ∧
      (nextOf (exec (cdRead .w4 0) (demoAt 0x80000000))).isSome = true ∧
      (nextOf (exec (cdWrite .w4 0 5) (demoAt 0x80000000))).isSome = true := by decide
theorem witness_ConfigWriteThenReadReturnsTheValue :
    (demoTop 0).fatal = false ∧ (demoTop 0).init = true ∧ (0 : BitVec 8).toNat < (demoTop 0).params.nbus ∧
      (0 : BitVec 5).toNat < (demoTop 0).params.nslot ∧ cellAt (demoTop 0) 0 0 = some 1 ∧
      (deviceOf (demoTop 0) 1).isSome = true ∧ isCustom (demoTop 0) 1 = false ∧
      (0xFC : BitVec 8).toNat + Width.w4.bytes ≤ 256 ∧
      (∀ k < Width.w4.bytes, ((deviceOf (demoTop 0) 1).map fun d => readByte d.mask (0xFC + k)) = some 0xFF) := by decide
theorem witness_DevRdReturnsStoredBytes :
    demo.fatal = false ∧ deviceOf demo 1 = some devA ∧ isCustom demo 1 = false ∧ (0xFE : BitVec 8).toNat + 2 ≤ 256 ∧
      ¬(0xFE : BitVec 8).toNat + 4 ≤ 256 := by decide
theorem witness_DevWrObeysTheMask : demo.fatal = false ∧ deviceOf demo 2 = some devB ∧ isCustom demo 2 = false := by decide
theorem witness_DirectCallsNeedADevice : demo.fatal = false ∧ deviceOf demo 0 = none := by decide
theorem witness_SingleByteWriteLaw : demo.fatal = false ∧ deviceOf demo 1 = some devA ∧ isCustom demo 1 = false := by decide
theorem witness_WideWriteIsByteWritesInAnyOrder :
    demo.fatal = false ∧ deviceOf demo 1 = some devA ∧ isCustom demo 1 = false ∧
      (0xFC : BitVec 8).toNat + Width.w4.bytes ≤ 256 ∧ [3, 1, 0, 2].Perm (List.range Width.w4.bytes) := by decide
theorem witness_WideReadIsByteReads :
    demo.fatal = false ∧ deviceOf demo 1 = some devA ∧ isCustom demo 1 = false ∧ (0 : BitVec 8).toNat + 4 ≤ 256 ∧
      resultOf (exec (.devRd 1 .w1 3) demo) = some (.data (.b8 0x56)) := by decide
theorem witness_RepeatedWriteChangesNothing :
    isCustom demo 1 = false ∧
      ((nextOf (exec (.devWr 1 .w4 4 0xFFFFFFFF) demo)).bind fun t => nextOf (exec (.devWr 1 .w4 4 0xFFFFFFFF) t)).isSome =
        true := by decide
theorem witness_CustomDevicesAnswerThemselves :
    (demoCustom 0x80000004).fatal = false ∧ deviceOf (demoCustom 0x80000004) 1 = some devA ∧
      isCustom (demoCustom 0x80000004) 1 = true ∧ Width.w2.fits 0xFFFF = true ∧ (demoCustom 0x80000004).init = true ∧
      targetIs (demoCustom 0x80000004) 1 ∧ (6 : BitVec 8).toNat = registerIndex (demoCustom 0x80000004).latch 2 := by
  refine ⟨by decide, by decide, by decide, by decide, by decide, ⟨by decide, by decide, by decide, by decide⟩, by decide⟩
theorem witness_RegisterNullIsInvalid : State.reset.fatal = false := by decide
theorem witness_RegisterRefusesUnknownAndRegistered :
    demo.fatal = false ∧ (9 : Handle) ≠ nullHandle ∧ deviceOf demo 9 = none ∧ (1 : Handle) ≠ nullHandle ∧
      deviceOf demo 1 ≠ none ∧ registered demo 1 = true := by decide
theorem witness_RegisterOutsideTheTableFails :
    demo3.fatal = false ∧ (3 : Handle) ≠ nullHandle ∧ deviceOf demo3 3 ≠ none ∧ registered demo3 3 = false ∧
      demo3.params.nbus ≤ 2 ∧ demo3.params.nslot ≤ 4 := by decide
theorem witness_RegisterAtAFreeCellSucceeds :
    demo3.fatal = false ∧ deviceOf demo3 3 ≠ none ∧ registered demo3 3 = false ∧ 1 < demo3.params.nbus ∧
      3 < demo3.params.nslot ∧ cellAt demo3 1 3 = none := by decide
theorem witness_RegisterCollisionIsFatal :
    demo3.fatal = false ∧ deviceOf demo3 3 ≠ none ∧ registered demo3 3 = false ∧ 0 < demo3.params.nbus ∧
      2 < demo3.params.nslot ∧ cellAt demo3 0 2 ≠ none := by decide
theorem witness_AutoPlacementTakesTheFirstEmptyCell :
    demo3.fatal = false ∧ deviceOf demo3 3 ≠ none ∧ registered demo3 3 = false ∧ cellAt demo3 0 1 = none ∧
      cellAt demo3 0 0 ≠ none := by decide
theorem witness_AutoPlacementFull :
    demoTiny.fatal = false ∧ deviceOf demoTiny 2 ≠ none ∧ registered demoTiny 2 = false ∧
      ∀ b < demoTiny.params.nbus, ∀ x < demoTiny.params.nslot, cellAt demoTiny b x ≠ none := by decide
theorem witness_RegistrationIsSeenAtOnce :
    (nextOf (exec (.hRegister 3 none none) demo3)).map (·.outbox) = some (.registered 1 :: demo3.outbox) := by decide
theorem witness_UnregisterEmptiesTheCell :
    demo.Inv ∧ demo.fatal = false ∧ 0 < demo.params.nbus ∧ 2 < demo.params.nslot ∧ cellAt demo 0 2 = some 2 :=
  ⟨witness_demo_inv, by decide, by decide, by decide, by decide⟩
theorem witness_UnregisterOfAnUnregisteredIsFalse : demo3.fatal = false ∧ registered demo3 3 = false ∧ demo.Inv :=
  ⟨by decide, by decide, witness_demo_inv⟩
theorem witness_UnregisteredCellReadsAbsent :
    demo.Inv ∧ demo.init = true ∧ 0 < demo.params.nbus ∧ 2 < demo.params.nslot ∧ cellAt demo 0 2 = some 2 ∧
      (nextOf (exec (.hUnregister 2) demo)).isSome = true ∧ ((0x80001000 : BitVec 32).extractLsb' 16 8).toNat = 0 ∧
      ((0x80001000 : BitVec 32).extractLsb' 11 5).toNat = 2 :=
  ⟨witness_demo_inv, by decide, by decide, by decide, by decide, by decide, by decide, by decide⟩
theorem witness_HInitInstallsTheDecode : State.reset.fatal = false := by decide
theorem witness_HShutdownTearsDown : demo3.fatal = false ∧ registered demo3 1 = true ∧ registered demo3 3 = false := by decide
theorem witness_HIsInitReportsTheFlag :
    demo.fatal = false ∧ (nextOf (exec (.hRegister 0 none none) State.reset)).map (·.fatal) = some false ∧
      (nextOf (exec .hInit State.reset)).isSome = true := by decide
theorem witness_HCreateAddsAFreshDevice :
    { demo with handleSupply := [7] }.fatal = false ∧ { demo with handleSupply := [7] }.handleSupply = [7] ∧
      (7 : Handle) ≠ nullHandle ∧ 7 ∉ demo.issued := by decide
theorem witness_HDevsetSetsOneByteUnmasked :
    demo.fatal = false ∧ deviceOf demo 1 = some devA ∧ deviceOf demo 9 = none := by decide
theorem witness_HDestroyRemovesAHostOwnedDevice :
    demo3.fatal = false ∧ deviceOf demo3 3 ≠ none ∧ registered demo3 3 = false ∧ deviceOf demo3 1 ≠ none ∧
      registered demo3 1 = true ∧ deviceOf demo3 9 = none := by decide
/-- H_CREATE from power-on goes on, and its one result is the handle it returns, whichever it is; no handle is custom. -/
theorem witness_BringUpFindsTheDevice :
    ∃ t h, exec (.hCreate 0x1234 0x5678) (State.powerOn Params.standard) = .next t ∧ t.outbox = [.handle h] ∧
      isCustom t h = false :=
  ⟨_, _, rfl, rfl, rfl⟩
theorem witness_StepKeepsTheInvariant :
    demo.Inv ∧ (nextOf (step (demo.withFetchWord 24 0x850000))).isSome = true ∧
      (nextOf (step (demo.withFetchWord 24 0x810000))).isSome = true :=
  ⟨witness_demo_inv, rfl, by decide⟩
theorem witness_InitChangesOnlyByLifecycleCalls :
    State.reset.init = false ∧ (nextOf (exec .hInit State.reset)).map (·.init) = some true ∧ demo.init = true ∧
      (nextOf (exec .hShutdown demo)).map (·.init) = some false := by decide
theorem witness_FatalOnlyByCollision :
    (nextOf (exec (.hRegister 3 (some 0) (some 2)) demo3)).map (·.fatal) = some true := by decide
theorem witness_TableAndStoreWriters :
    (nextOf (exec (.cdRd8 0) demo)).isSome = true ∧ demo.params.customHandles = [] ∧ (∀ w off v, Instr.cdRd8 0 ≠ cdWrite w off v) :=
  ⟨by decide, by decide, fun w _ _ => by cases w <;> simp [cdWrite, dataPortInstr]⟩
theorem witness_GuestTransactionsNeverFail :
    demo.Inv ∧ demo.fatal = false ∧ isGuest (.cdRd8 0) = true ∧ isNarrow (.cdRd8 0) = false :=
  ⟨witness_demo_inv, by decide, by decide, by decide⟩
theorem witness_GuestChangesOnlyMaskedBits :
    isGuest (.cdWr8 0 0xFF) = true ∧ (nextOf (exec (.cdWr8 0 0xFF) (demoAt 0x80000004))).isSome = true ∧
      deviceOf (demoAt 0x80000004) 1 = some devA ∧ isCustom (demoAt 0x80000004) 1 = false ∧
      (nextOf (exec (.hDevset 1 0 0xFF 0) demo)).isSome = true := by decide
theorem witness_GuestReachesOnlyLatchAndBytes :
    isGuest (.caWr32 5) = true ∧ (nextOf (exec (.caWr32 5) demo)).isSome = true := by decide

end Sys2Proof.Tests
end

/-! PROOFS of the family 00_scope. Which operations and steps change the state and how is said once, as the relation
`Effect`; the invariant (O53) and the history of the model's own fields (O11) follow from it. -/

namespace Sys2Proof.Machine

open Sys2Proof

/-! ## The step -/

theorem fetch_nil {s : State} (hf : s.fatal = false) (hin : s.inbox = []) : fetch s = .idle := by
  simp [fetch, hf, hin]

theorem fetch_instr {s : State} {p : Presented} {rest : List Presented} {i : Instr} (hf : s.fatal = false)
    (hin : s.inbox = p :: rest) (hd : decode p = .instr i) : fetch s = .run i { s with inbox := rest } := by
  simp [fetch, hf, hin, hd]

/-- Settles O7, by what the fetch takes from the input. -/
theorem stepRunsTheDecodedOperation : Obligations.StepRunsTheDecodedOperation := by
  intro s p rest i hf hin hd
  rw [step, fetch_instr hf hin hd]

/-- Settles O10, by what the fetch finds. -/
theorem stepWaitsWithNothingPresented : Obligations.StepWaitsWithNothingPresented := by
  intro s hf hin
  rw [step, fetch_nil hf hin]

/-! ## The guest guards, by case -/

section Guards

variable {dir : Dir} {w : Width} {port : BitVec 16} {s : State} (o : Host.Outcome State Fault Refusal)

theorem whenClaimed_claimed (hf : s.fatal = false) (hi : s.init = true) : whenClaimed dir w port s o = o := by
  simp [whenClaimed, hf, hi]

theorem whenClaimed_unclaimed (hf : s.fatal = false) (hi : s.init = false) :
    whenClaimed dir w port s o = .next (unclaimed dir w port s) := by
  simp [whenClaimed, hf, hi]

theorem narrowAccess_refuse (hf : s.fatal = false) (hp : s.params.narrowAddr = .refuse) :
    narrowAccess dir w s o = .refused .narrowAddressAccess := by
  simp [narrowAccess, hf, hp]

/-- A narrow access is not claimed under Ignore, and under ZextReplace not before initialization (spec R103 to R106). -/
theorem narrowAccess_unclaimed (hf : s.fatal = false)
    (hp : s.params.narrowAddr = .ignore ∨ s.params.narrowAddr = .zextReplace ∧ s.init = false) :
    narrowAccess dir w s o = .next (unclaimed dir w addressPort s) := by
  rcases hp with hp | ⟨hp, hi⟩
  · simp [narrowAccess, hf, hp]
  · simp [narrowAccess, hf, hp, whenClaimed_unclaimed o hf hi]

theorem narrowAccess_claimed (hf : s.fatal = false) (hp : s.params.narrowAddr = .zextReplace) (hi : s.init = true) :
    narrowAccess dir w s o = o := by
  simp [narrowAccess, hf, hp, whenClaimed_claimed o hf hi]

end Guards

/-- Settles O14, by the three cases of a narrow access. -/
theorem narrowAddressWritesFollowTheParameter : Obligations.NarrowAddressWritesFollowTheParameter := by
  intro s v u hf
  refine ⟨fun hp => ?refuse, fun hp => ?ignore, fun hp hi => ?claimed, fun hp hi => ?unclaimed⟩
  case refuse => exact ⟨narrowAccess_refuse _ hf hp, narrowAccess_refuse _ hf hp⟩
  case ignore => exact ⟨narrowAccess_unclaimed _ hf (.inl hp), narrowAccess_unclaimed _ hf (.inl hp)⟩
  case claimed => exact ⟨narrowAccess_claimed _ hf hp hi, narrowAccess_claimed _ hf hp hi⟩
  case unclaimed => exact ⟨narrowAccess_unclaimed _ hf (.inr ⟨hp, hi⟩), narrowAccess_unclaimed _ hf (.inr ⟨hp, hi⟩)⟩

/-- Settles O15, by the three cases of a narrow access. -/
theorem narrowAddressReadsFollowTheParameter : Obligations.NarrowAddressReadsFollowTheParameter := by
  intro s hf
  refine ⟨fun hp => ?refuse, fun hp => ?unclaimed, fun hp hi => ?claimed⟩
  case refuse => exact ⟨narrowAccess_refuse _ hf hp, narrowAccess_refuse _ hf hp⟩
  case unclaimed => exact ⟨narrowAccess_unclaimed _ hf hp, narrowAccess_unclaimed _ hf hp⟩
  case claimed => exact ⟨narrowAccess_claimed _ hf hp hi, narrowAccess_claimed _ hf hp hi⟩

/-! ## Custom devices -/

/-- A data-port offset fills the two low bits that the mask 0xFC clears, so joining it adds it (spec R77). -/
theorem toNat_or_offset (x : BitVec 8) (off : BitVec 2) :
    (x &&& 0xFC ||| off.setWidth 8).toNat = (x &&& 0xFC).toNat + off.toNat := by
  have hdisj : x &&& 0xFC &&& off.setWidth 8 = 0 := by
    ext k hk
    by_cases hk2 : k < 2
    · interval_cases k <;> simp
    · simp [BitVec.getLsbD_of_ge off k (by omega)]
  rw [← BitVec.add_eq_or_of_and_eq_zero _ _ hdisj, BitVec.toNat_add_of_and_eq_zero hdisj,
    BitVec.toNat_setWidth_of_le (by decide)]

/-- The register a data-port access decodes is the index (L & 0xFC) + off (spec R54, R77). -/
theorem decodeLatch_reg_toNat (l : BitVec 32) (off : BitVec 2) :
    (decodeLatch l off).reg.toNat = registerIndex l off := by
  have hbyte : (l.extractLsb' 0 8 &&& 0xFC).toNat = (l &&& 0xFC).toNat := by
    have hle : l.toNat &&& 0xFC ≤ 0xFC := Nat.and_le_right
    calc (l.extractLsb' 0 8 &&& 0xFC).toNat = (l.toNat &&& 0xFC) % 2 ^ 8 := by
          simpa using (Nat.and_mod_two_pow (a := l.toNat) (b := 0xFC) (n := 8)).symm
      _ = (l &&& 0xFC).toNat := by rw [Nat.mod_eq_of_lt (by omega)]; rfl
  rw [registerIndex, ← hbyte]
  exact toNat_or_offset _ off

/-- A transferred value of 8 * w bits is its own low 8 * w bits (spec R162). -/
theorem truncTo_of_fits {w : Width} {v : BitVec 32} (hv : w.fits v = true) : truncTo w v = v := by
  have hlt : v.toNat < 2 ^ (8 * w.bytes) := by simpa [Width.fits] using hv
  apply BitVec.eq_of_toNat_eq
  cases w <;> simp [truncTo, Width.bytes] at hlt ⊢ <;> omega

theorem exec_cdRead (w : Width) (off : BitVec 2) (s : State) : exec (cdRead w off) s = dataRead w off s := by
  cases w <;> rfl

/-- A CD_WR row writes the low 8 * w bits of its value (spec R134 to R136). -/
theorem exec_cdWrite (w : Width) (off : BitVec 2) (v : BitVec 32) (s : State) :
    exec (cdWrite w off v) s = dataWrite w off (truncTo w v) s := by
  cases w <;> rfl

section Dispatch

variable {s : State} {h : Handle} {d : DeviceRecord} {off : BitVec 2} (w : Width) (r : BitVec 8) (v : BitVec 32)

/-- A claimed data-port read of a present target is the device's read at the register index (spec R131 to R133). -/
theorem dataRead_present (hf : s.fatal = false) (hi : s.init = true) (ht : targetIs s h)
    (hr : r.toNat = registerIndex s.latch off) : dataRead w off s = devRead h r w s := by
  obtain rfl : r = (decodeLatch s.latch off).reg := BitVec.eq_of_toNat_eq (by rw [hr, decodeLatch_reg_toNat])
  rw [dataRead, whenClaimed_claimed _ hf hi, route_present off ht]

/-- A claimed data-port write of a present target is the device's write at the register index (spec R134 to R136). -/
theorem dataWrite_present (hf : s.fatal = false) (hi : s.init = true) (ht : targetIs s h)
    (hr : r.toNat = registerIndex s.latch off) : dataWrite w off v s = devWrite h r w v s := by
  obtain rfl : r = (decodeLatch s.latch off).reg := BitVec.eq_of_toNat_eq (by rw [hr, decodeLatch_reg_toNat])
  rw [dataWrite, whenClaimed_claimed _ hf hi, route_present off ht]

theorem devRead_custom (hd : deviceOf s h = some d) (hc : isCustom s h = true) :
    devRead h r w s = .next (customRead h d r w s) := by
  simp [devRead, hd, hc]

theorem devWrite_custom (hd : deviceOf s h = some d) (hc : isCustom s h = true) :
    devWrite h r w v s = .next (respond .done (setDevice h (customAfterWrite h d r w v) s)) := by
  simp [devWrite, hd, hc]

end Dispatch

/-- Setting one record and answering changes that device alone. -/
theorem onlyDevice_respond_setDevice (r : Response) (h : Handle) (d : DeviceRecord) (s : State) :
    OnlyDevice s (respond r (setDevice h d s)) h d r :=
  ⟨rfl, by simp, fun h' hne => by simp [hne]⟩

/-- Settles O33: both ports run the device's own functions, whose bytes the record then lists. -/
theorem customDevicesAnswerThemselves : Obligations.CustomDevicesAnswerThemselves := by
  intro s h d w reg v off hf hd hc hv
  refine ⟨fun i hcase => ?_, fun i hcase => ?_⟩
  · have hex : exec i s = .next (customRead h d reg w s) := by
      rcases hcase with rfl | ⟨rfl, hi, ht, hr⟩
      · exact (whenAlive_alive hf _).trans (devRead_custom w reg hd hc)
      · rw [exec_cdRead, dataRead_present w reg hf hi ht hr, devRead_custom w reg hd hc]
    exact ⟨_, _, hex, onlyDevice_respond_setDevice _ _ _ _,
      fun k => ⟨readByte_memoryOf _ k, readByte_memoryOf _ k⟩⟩
  · have hex : exec i s = .next (respond .done (setDevice h (customAfterWrite h d reg w v) s)) := by
      rcases hcase with rfl | ⟨rfl, hi, ht, hr⟩
      · refine (whenAlive_alive hf _).trans ?_
        rw [truncTo_of_fits hv, devWrite_custom w reg v hd hc]
      · rw [exec_cdWrite, truncTo_of_fits hv, dataWrite_present w reg v hf hi ht hr, devWrite_custom w reg v hd hc]
    exact ⟨_, _, hex, onlyDevice_respond_setDevice _ _ _ _,
      fun k => ⟨readByte_memoryOf _ k, readByte_memoryOf _ k⟩⟩

/-! ## What an operation can do -/

/-- The next state of an operation, as one of the block's updates with the result it gives back: what `exec_effect` shows of
every operation. -/
inductive Effect (s : State) : State → Prop
  /-- An explicit collision (spec R253). -/
  | fatal : Effect s (raiseFatal s)
  /-- A result, and nothing else. -/
  | answer (r : Response) : Effect s (respond r s)
  /-- A result that took a free value (spec R8). -/
  | draw (r : Response) : Effect s (respond r (countDraw s))
  /-- A write of the latch (spec R101). -/
  | latch (v : BitVec 32) : Effect s (writeLatch v s)
  /-- The port decode installed (spec R226). -/
  | install (r : Response) : Effect s (respond r (doInit s))
  /-- One live record replaced, its canonical form kept (spec R162, R168, R224). -/
  | record (r : Response) (h : Handle) (d d' : DeviceRecord) (hd : deviceOf s h = some d) (hwf : d.wf → d'.wf) :
      Effect s (respond r (setDevice h d' s))
  /-- A record created under a fresh handle (spec R223). -/
  | create (r : Response) (vendor device : BitVec 16) :
      Effect s (respond r (issueHandle (freshHandle s) (setDevice (freshHandle s) (constructed vendor device) s)))
  /-- A host-owned record removed (spec R225). -/
  | destroy (r : Response) (h : Handle) (hreg : registered s h = false) : Effect s (respond r (removeDevice h s))
  /-- A live device in no cell stored in a cell of the table, the port decode installed (spec R194). -/
  | fill (h : Handle) (b x : Nat) (hlive : deviceOf s h ≠ none) (hreg : registered s h = false)
      (hb : b < s.params.nbus) (hx : x < s.params.nslot) : Effect s (placeAt h b x (doInit s))
  /-- A cell emptied (spec R196). -/
  | clear (r : Response) (k : Nat) : Effect s (respond r (clearCell k s))
  /-- Shutdown (spec R221). -/
  | shutdown (r : Response) : Effect s (respond r (shutDown s))

section Effects

variable {s t : State}

theorem unclaimed_effect (dir : Dir) (w : Width) (port : BitVec 16) (s : State) : Effect s (unclaimed dir w port s) := by
  cases dir
  · exact .draw _
  · exact .answer _

theorem whenClaimed_effect {dir : Dir} {w : Width} {port : BitVec 16} {o : Host.Outcome State Fault Refusal}
    (ho : o = .next t → Effect s t) (hn : whenClaimed dir w port s o = .next t) : Effect s t := by
  obtain ⟨-, ⟨-, hn⟩ | ⟨-, rfl⟩⟩ := whenClaimed_next hn
  · exact ho hn
  · exact unclaimed_effect dir w port s

theorem narrowAccess_effect {dir : Dir} {w : Width} {o : Host.Outcome State Fault Refusal}
    (ho : o = .next t → Effect s t) (hn : narrowAccess dir w s o = .next t) : Effect s t := by
  obtain ⟨-, ⟨-, rfl⟩ | ⟨-, hn⟩⟩ := narrowAccess_next hn
  · exact unclaimed_effect dir w addressPort s
  · exact whenClaimed_effect ho hn

theorem effect_of_next_eq {u : State} (hu : Effect s u) (hn : Host.Outcome.next (φ := Fault) (ρ := Refusal) u = .next t) :
    Effect s t := by
  cases hn
  exact hu

theorem genericRead_effect (h : Handle) (d : DeviceRecord) (r : BitVec 8) (w : Width) (s : State) :
    Effect s (genericRead h d r w s) := by
  unfold genericRead
  split
  · exact .draw _
  · exact .answer _

theorem devRead_effect {h : Handle} {r : BitVec 8} {w : Width} (hn : devRead h r w s = .next t) : Effect s t := by
  obtain ⟨d, hd, ⟨-, rfl⟩ | ⟨-, rfl⟩⟩ := devRead_next hn
  · exact .record _ h d _ hd fun _ => customAfterRead_wf h d r w
  · exact genericRead_effect h d r w s

theorem devWrite_effect {h : Handle} {r : BitVec 8} {w : Width} {v : BitVec 32} (hn : devWrite h r w v s = .next t) :
    Effect s t := by
  obtain ⟨d, hd, rfl⟩ := devWrite_next hn
  refine .record _ h d _ hd fun hwf => ?_
  split
  · exact customAfterWrite_wf h d r w v
  · exact cfgWriteLanes_wf v r.toNat w.bytes hwf

theorem dataRead_effect {w : Width} {off : BitVec 2} (hn : dataRead w off s = .next t) : Effect s t := by
  refine whenClaimed_effect (fun hn => ?_) hn
  split at hn
  · exact effect_of_next_eq (.answer _) hn
  · exact devRead_effect hn

theorem dataWrite_effect {w : Width} {off : BitVec 2} {v : BitVec 32} (hn : dataWrite w off v s = .next t) :
    Effect s t := by
  refine whenClaimed_effect (fun hn => ?_) hn
  split at hn
  · exact effect_of_next_eq (.answer _) hn
  · exact devWrite_effect hn

theorem execHDevset_effect {h : Handle} {i data mask : BitVec 8} (hn : execHDevset h i data mask s = .next t) :
    Effect s t := by
  obtain ⟨-, hn⟩ := whenAlive_next hn
  split at hn
  · cases hn
  · next d hd => exact effect_of_next_eq (.record _ h d _ hd fun hwf => devset_wf hwf i data mask) hn

theorem execHDestroy_effect {h : Handle} (hn : execHDestroy h s = .next t) : Effect s t := by
  obtain ⟨-, hn⟩ := whenAlive_next hn
  split at hn
  · cases hn
  · split at hn
    · cases hn
    · next hreg => exact effect_of_next_eq (.destroy _ h (by simpa using hreg)) hn

theorem execHUnregister_effect {h : Handle} (hn : execHUnregister h s = .next t) : Effect s t := by
  obtain ⟨-, hn⟩ := whenAlive_next hn
  split at hn
  · exact effect_of_next_eq (.clear _ _) hn
  · exact effect_of_next_eq (.answer _) hn

/-! ### Registration -/

/-- The search of PlaceAuto, begun inside the table, stops at an empty cell of the table (spec R192, R198). -/
theorem autoSearch_some {rb rs : Option Nat} (hrs : ∀ x0, rs = some x0 → x0 < s.params.nslot) {fuel b x b' x' : Nat}
    (hb : b < s.params.nbus) (hx : x < s.params.nslot) (hs : autoSearch s rb rs fuel b x = some (b', x')) :
    b' < s.params.nbus ∧ x' < s.params.nslot ∧ cellAt s b' x' = none := by
  induction fuel generalizing b x with
  | zero => simp [autoSearch] at hs
  | succ fuel ih =>
    have hstart : rs.getD 0 < s.params.nslot := by
      cases rs with
      | none => exact Params.nslot_pos s.params
      | some x0 => exact hrs x0 rfl
    rw [autoSearch] at hs
    split at hs
    · next hc =>
      obtain ⟨rfl, rfl⟩ : b = b' ∧ x = x' := by simpa using hs
      exact ⟨hb, hx, hc⟩
    · split at hs
      · split at hs
        · cases hs
        · exact ih (by omega) hstart hs
      · exact ih hb (by omega) hs

/-- The cell PlaceAuto takes is an empty cell of the table (spec R192). -/
theorem autoCell_some {rb rs : Option Nat} (hrb : ∀ b0, rb = some b0 → b0 < s.params.nbus)
    (hrs : ∀ x0, rs = some x0 → x0 < s.params.nslot) {b x : Nat} (hc : autoCell s rb rs = some (b, x)) :
    b < s.params.nbus ∧ x < s.params.nslot ∧ cellAt s b x = none := by
  refine autoSearch_some hrs ?_ ?_ hc
  · cases rb with
    | none => exact Params.nbus_pos s.params
    | some b0 => exact hrb b0 rfl
  · cases rs with
    | none => exact Params.nslot_pos s.params
    | some x0 => exact hrs x0 rfl

/-- An explicit index is not beyond the table exactly when it is inside it (spec R191). -/
theorem beyondTable_eq_false {size : Nat} {o : Option Nat} :
    beyondTable size o = false ↔ ∀ n, o = some n → n < size := by
  cases o <;> simp [beyondTable]

section Place

variable {h : Handle} {rb rs : Option Nat} (hlive : deviceOf s h ≠ none) (hreg : registered s h = false)
include hlive hreg

theorem placeAuto_effect (hrb : ∀ b0, rb = some b0 → b0 < s.params.nbus)
    (hrs : ∀ x0, rs = some x0 → x0 < s.params.nslot) : Effect s (placeAuto h rb rs (doInit s)) := by
  unfold placeAuto
  split
  · next b x hc =>
    obtain ⟨hb, hx, -⟩ := autoCell_some (by simpa using hrb) (by simpa using hrs) hc
    exact .fill h b x hlive hreg (by simpa using hb) (by simpa using hx)
  · exact .install _

theorem placeExplicit_effect {b x : Nat} (hb : b < s.params.nbus) (hx : x < s.params.nslot) :
    Effect s (placeExplicit h b x s (doInit s)) := by
  unfold placeExplicit
  split
  · exact .fill h b x hlive hreg hb hx
  · exact .fatal

theorem place_effect (hrb : ∀ b0, rb = some b0 → b0 < s.params.nbus)
    (hrs : ∀ x0, rs = some x0 → x0 < s.params.nslot) : Effect s (place h rb rs s (doInit s)) := by
  unfold place
  split
  · exact placeExplicit_effect hlive hreg (hrb _ rfl) (hrs _ rfl)
  all_goals exact placeAuto_effect hlive hreg hrb hrs

end Place

theorem execHRegister_effect {h : Handle} {rb rs : Option Nat} (hn : execHRegister h rb rs s = .next t) :
    Effect s t := by
  obtain ⟨-, hn⟩ := whenAlive_next hn
  split at hn
  · exact effect_of_next_eq (.install _) hn
  split at hn
  · cases hn
  next hlive =>
  split at hn
  · cases hn
  next hreg =>
  split at hn
  · exact effect_of_next_eq (.install _) hn
  next hrb =>
  split at hn
  · exact effect_of_next_eq (.install _) hn
  next hrs =>
  rw [Bool.not_eq_true, beyondTable_eq_false] at hrb hrs
  exact effect_of_next_eq (place_effect hlive (by simpa using hreg) hrb hrs) hn

/-! ### All operations and the step -/

/-- Every operation that answers a next state has one of the block's effects. -/
theorem exec_effect {i : Instr} (hn : exec i s = .next t) : Effect s t := by
  cases i with
  | caRd32 => exact whenClaimed_effect (effect_of_next_eq (.answer _)) hn
  | caWr32 v => exact whenClaimed_effect (effect_of_next_eq (.latch v)) hn
  | caRd8 => exact narrowAccess_effect (effect_of_next_eq (.answer _)) hn
  | caRd16 => exact narrowAccess_effect (effect_of_next_eq (.answer _)) hn
  | caWr8 v => exact narrowAccess_effect (effect_of_next_eq (.latch _)) hn
  | caWr16 v => exact narrowAccess_effect (effect_of_next_eq (.latch _)) hn
  | cdRd8 off => exact dataRead_effect hn
  | cdRd16 off => exact dataRead_effect hn
  | cdRd32 off => exact dataRead_effect hn
  | cdWr8 off v => exact dataWrite_effect hn
  | cdWr16 off v => exact dataWrite_effect hn
  | cdWr32 off v => exact dataWrite_effect hn
  | devRd h w reg => exact devRead_effect (whenAlive_next hn).2
  | devWr h w reg v => exact devWrite_effect (whenAlive_next hn).2
  | hInit => exact effect_of_next_eq (.install _) (whenAlive_next hn).2
  | hShutdown => exact effect_of_next_eq (.shutdown _) (whenAlive_next hn).2
  | hRegister h rb rs => exact execHRegister_effect hn
  | hUnregister h => exact execHUnregister_effect hn
  | hIsInit => exact effect_of_next_eq (.answer _) (whenAlive_next hn).2
  | hCreate vendor device => exact effect_of_next_eq (.create _ vendor device) (whenAlive_next hn).2
  | hDevset h i data mask => exact execHDevset_effect hn
  | hDestroy h => exact execHDestroy_effect hn

/-- A step waits, or has one of the block's effects on the state with the oldest presented operation taken. -/
theorem step_effect (hn : step s = .next t) : t = s ∨ ∃ rest, Effect { s with inbox := rest } t := by
  obtain ⟨-, ⟨-, rfl⟩ | ⟨p, rest, -, ⟨i, -, hn⟩ | ⟨dir, w, port, -, rfl⟩⟩⟩ := step_cases hn
  · exact .inl rfl
  · exact .inr ⟨rest, exec_effect hn⟩
  · exact .inr ⟨rest, unclaimed_effect dir w port _⟩

end Effects

/-! ## The parameters and the history -/

/-- What O11 says of two states: the parameters stay, and no result, handle or draw is taken back. -/
def KeepsHistory (s t : State) : Prop :=
  t.params = s.params ∧ s.outbox <:+ t.outbox ∧ s.issued <:+ t.issued ∧ s.draws ≤ t.draws

theorem Effect.keepsHistory {s t : State} (he : Effect s t) : KeepsHistory s t := by
  cases he <;> simp [KeepsHistory, placeAt]

/-- Settles O11: every effect of a step keeps the parameters and only adds to the history. -/
theorem stepKeepsParametersAndHistory : Obligations.StepKeepsParametersAndHistory := by
  intro s t hn
  rcases step_effect hn with rfl | ⟨rest, he⟩
  · exact ⟨rfl, List.suffix_refl _, List.suffix_refl _, le_refl _⟩
  · exact he.keepsHistory

/-! ## The invariant -/

/-- The invariant reads the table, the store, the parameters, the handles and `init` alone. -/
theorem State.Inv.of_same {s t : State} (hs : s.Inv) (htable : t.table = s.table) (hdevices : t.devices = s.devices)
    (hparams : t.params = s.params) (hissued : t.issued = s.issued) (hinit : t.init = false → s.init = false) :
    t.Inv where
  tableSorted := htable ▸ hs.tableSorted
  devicesSorted := hdevices ▸ hs.devicesSorted
  recordsWf := hdevices ▸ hs.recordsWf
  cellsInTable := by rw [htable, hparams]; exact hs.cellsInTable
  cellsLive := by simpa only [deviceOf, htable, hdevices] using hs.cellsLive
  cellsDistinct := htable ▸ hs.cellsDistinct
  devicesIssued := by rw [hdevices, hissued]; exact hs.devicesIssued
  nullNotIssued := hissued ▸ hs.nullNotIssued
  issuedDistinct := hissued ▸ hs.issuedDistinct
  emptyBeforeInit h := htable.trans (hs.emptyBeforeInit (hinit h))

theorem respond_inv {s : State} (hs : s.Inv) (r : Response) : (respond r s).Inv := hs.of_same rfl rfl rfl rfl id

theorem doInit_inv {s : State} (hs : s.Inv) : (doInit s).Inv := hs.of_same (by simp) (by simp) (by simp) (by simp) (by simp)

/-- Setting a record in canonical form keeps every record in it. -/
theorem recordsWf_setDevice {s : State} {h : Handle} {d : DeviceRecord} (hs : ∀ e ∈ s.devices, e.2.wf) (hd : d.wf) :
    ∀ e ∈ (setDevice h d s).devices, e.2.wf := by
  intro e he
  rcases mem_mapSet he with rfl | he
  · exact hd
  · exact hs e he

/-- Setting a record takes no handle out of DS. -/
theorem deviceOf_setDevice_ne_none {s : State} {h h' : Handle} {d : DeviceRecord} (hl : deviceOf s h' ≠ none) :
    deviceOf (setDevice h d s) h' ≠ none := by
  by_cases he : h' = h
  · simp [he]
  · simpa [he] using hl

theorem setDevice_inv {s : State} {h : Handle} {d d' : DeviceRecord} (hs : s.Inv) (hd : deviceOf s h = some d)
    (hwf : d'.wf) : (setDevice h d' s).Inv :=
  have hissued : h ∈ s.issued := hs.devicesIssued _ (mem_of_mapGet hd)
  { hs with
    devicesSorted := mapSorted_mapSet _ _ hs.devicesSorted
    recordsWf := recordsWf_setDevice hs.recordsWf hwf
    cellsLive := fun e he => deviceOf_setDevice_ne_none (hs.cellsLive e he)
    devicesIssued := fun e he => by
      rcases mem_mapSet he with rfl | he
      · exact hissued
      · exact hs.devicesIssued e he }

/-- A record found in the store is in canonical form. -/
theorem State.Inv.record_wf {s : State} {h : Handle} {d : DeviceRecord} (hs : s.Inv) (hd : deviceOf s h = some d) : d.wf :=
  hs.recordsWf _ (mem_of_mapGet hd)

/-- H_CREATE's handle is not null (spec R223). -/
theorem freshHandle_ne_null (s : State) : freshHandle s ≠ nullHandle := by
  unfold freshHandle
  split
  · next h => exact h.1
  · exact Nat.succ_ne_zero _

/-- H_CREATE's handle was never returned before (spec R223). -/
theorem freshHandle_not_issued (s : State) : freshHandle s ∉ s.issued := by
  unfold freshHandle
  split
  · next h => exact h.2
  · intro hm
    have hle : s.issued.foldr max 0 + 1 ≤ s.issued.foldr max 0 := List.le_max_of_le' 0 hm le_rfl
    exact Nat.not_succ_le_self _ hle

theorem create_inv {s : State} (hs : s.Inv) {h : Handle} {d : DeviceRecord} (hnull : h ≠ nullHandle)
    (hfresh : h ∉ s.issued) (hd : d.wf) : (issueHandle h (setDevice h d s)).Inv :=
  { hs with
    devicesSorted := mapSorted_mapSet _ _ hs.devicesSorted
    recordsWf := recordsWf_setDevice hs.recordsWf hd
    cellsLive := fun e he => deviceOf_setDevice_ne_none (hs.cellsLive e he)
    devicesIssued := fun e he => by
      rcases mem_mapSet he with rfl | he
      · exact List.mem_cons_self
      · exact List.mem_cons_of_mem _ (hs.devicesIssued e he)
    nullNotIssued := by simpa [hnull.symm] using hs.nullNotIssued
    issuedDistinct := List.nodup_cons.mpr ⟨hfresh, hs.issuedDistinct⟩ }

/-- A handle in no cell is held by no entry of the table (spec R30). -/
theorem registered_eq_false {s : State} {h : Handle} : registered s h = false ↔ ∀ e ∈ s.table, e.2 ≠ h := by
  simp [registered]

theorem removeDevice_inv {s : State} {h : Handle} (hs : s.Inv) (hreg : registered s h = false) :
    (removeDevice h s).Inv :=
  { hs with
    devicesSorted := mapSorted_mapErase _ hs.devicesSorted
    recordsWf := fun e he => hs.recordsWf e (List.mem_of_mem_filter he)
    cellsLive := fun e he => by
      rw [deviceOf_removeDevice_other _ _ _ (registered_eq_false.mp hreg e he)]
      exact hs.cellsLive e he
    devicesIssued := fun e he => hs.devicesIssued e (List.mem_of_mem_filter he) }

/-- Setting a key to a value that the map holds nowhere keeps the values distinct. -/
theorem nodup_values_mapSet {α : Type} {m : List (Nat × α)} {v : α} (k : Nat) (hm : (m.map Prod.snd).Nodup)
    (hv : ∀ e ∈ m, e.2 ≠ v) : ((mapSet m k v).map Prod.snd).Nodup := by
  induction m with
  | nil => simp [mapSet]
  | cons e m ih =>
    obtain ⟨k', v'⟩ := e
    have hv' : v ∉ m.map Prod.snd := fun hmem => by
      obtain ⟨e, he, hev⟩ := List.mem_map.mp hmem
      exact hv e (List.mem_cons_of_mem _ he) hev
    obtain ⟨hhead, htail⟩ := List.nodup_cons.mp hm
    have hne : v' ≠ v := hv _ List.mem_cons_self
    rw [mapSet]
    split
    · exact List.nodup_cons.mpr ⟨List.not_mem_cons_of_ne_of_not_mem hne.symm hv', hm⟩
    · split
      · exact List.nodup_cons.mpr ⟨hv', htail⟩
      · refine List.nodup_cons.mpr ⟨fun hmem => ?_, ih htail fun e he => hv e (List.mem_cons_of_mem _ he)⟩
        obtain ⟨e, he, hev⟩ := List.mem_map.mp hmem
        rcases mem_mapSet he with rfl | he
        · exact hne hev.symm
        · exact hhead (List.mem_map.mpr ⟨e, he, hev⟩)

theorem fillCell_inv {s : State} {h : Handle} {b x : Nat} (hs : s.Inv) (hlive : deviceOf s h ≠ none)
    (hreg : registered s h = false) (hb : b < s.params.nbus) (hx : x < s.params.nslot) (hinit : s.init = true) :
    (fillCell b x h s).Inv :=
  { hs with
    tableSorted := mapSorted_mapSet _ _ hs.tableSorted
    cellsInTable := fun e he => by
      rcases mem_mapSet he with rfl | he
      · exact ⟨b, x, hb, hx, rfl⟩
      · exact hs.cellsInTable e he
    cellsLive := fun e he => by
      rcases mem_mapSet he with rfl | he
      · exact hlive
      · exact hs.cellsLive e he
    cellsDistinct := nodup_values_mapSet _ hs.cellsDistinct (registered_eq_false.mp hreg)
    emptyBeforeInit := fun hi => by simp [hinit] at hi }

theorem clearCell_inv {s : State} (hs : s.Inv) (k : Nat) : (clearCell k s).Inv :=
  { hs with
    tableSorted := mapSorted_mapErase _ hs.tableSorted
    cellsInTable := fun e he => hs.cellsInTable e (List.mem_of_mem_filter he)
    cellsLive := fun e he => hs.cellsLive e (List.mem_of_mem_filter he)
    cellsDistinct := hs.cellsDistinct.sublist (List.filter_sublist.map _)
    emptyBeforeInit := fun hi => by simp [hs.emptyBeforeInit hi, mapErase] }

theorem shutDown_inv {s : State} (hs : s.Inv) : (shutDown s).Inv :=
  { hs with
    tableSorted := List.Pairwise.nil
    devicesSorted := mapSorted_filter hs.devicesSorted _
    recordsWf := fun e he => hs.recordsWf e (List.mem_of_mem_filter he)
    cellsInTable := fun _ he => absurd he List.not_mem_nil
    cellsLive := fun _ he => absurd he List.not_mem_nil
    cellsDistinct := List.nodup_nil
    devicesIssued := fun e he => hs.devicesIssued e (List.mem_of_mem_filter he)
    emptyBeforeInit := fun _ => rfl }

/-- Every effect of an operation keeps the invariant. -/
theorem Effect.inv {s t : State} (he : Effect s t) (hs : s.Inv) : t.Inv := by
  cases he with
  | fatal => exact hs.of_same rfl rfl rfl rfl id
  | answer r => exact respond_inv hs r
  | draw r => exact hs.of_same rfl rfl rfl rfl id
  | latch v => exact hs.of_same rfl rfl rfl rfl id
  | install r => exact respond_inv (doInit_inv hs) r
  | record r h d d' hd hwf => exact respond_inv (setDevice_inv hs hd (hwf (hs.record_wf hd))) r
  | create r vendor device =>
    exact respond_inv (create_inv hs (freshHandle_ne_null s) (freshHandle_not_issued s) (constructed_wf vendor device)) r
  | destroy r h hreg => exact respond_inv (removeDevice_inv hs hreg) r
  | fill h b x hlive hreg hb hx =>
    refine respond_inv (fillCell_inv (doInit_inv hs) ?_ ?_ ?_ ?_ (doInit_init s)) _
    · simpa using hlive
    · simpa [registered] using hreg
    · simpa using hb
    · simpa using hx
  | clear r k => exact respond_inv (clearCell_inv hs k) r
  | shutdown r => exact respond_inv (shutDown_inv hs) r

/-- Settles O53: a step waits or has one of the block's effects, and each of them keeps the invariant. -/
theorem stepKeepsTheInvariant : Obligations.StepKeepsTheInvariant := by
  intro s t hs hn
  rcases step_effect hn with rfl | ⟨rest, he⟩
  · exact hs
  · exact he.inv (hs.of_same rfl rfl rfl rfl id)

end Sys2Proof.Machine

/-! PROOFS of the family 10_state. Which operation has which effect is said once, as the relation `Performs`; the writers of
the latch (O17), of `init` (O54), of `fatal` (O55), of the table and the store (O56), and what a guest may change in a
record (O58) are read off it. -/

namespace Sys2Proof.Machine

open Sys2Proof

/-! ## Power-on -/

/-- Settles O51: at power-on every field holds the value it was built with. -/
theorem powerOnState : Obligations.PowerOnState :=
  ⟨fun p => ⟨rfl, rfl, rfl, fun _ _ => rfl, fun _ => rfl, powerOn_params p⟩, rfl⟩

/-- Settles O52: at power-on the table, the store and the issued handles are empty. -/
theorem powerOnMeetsTheInvariant : Obligations.PowerOnMeetsTheInvariant := fun p =>
  { tableSorted := List.Pairwise.nil
    devicesSorted := List.Pairwise.nil
    recordsWf := powerOn_records_wf p
    cellsInTable := fun _ he => absurd he List.not_mem_nil
    cellsLive := fun _ he => absurd he List.not_mem_nil
    cellsDistinct := List.nodup_nil
    devicesIssued := fun _ he => absurd he List.not_mem_nil
    nullNotIssued := List.not_mem_nil
    issuedDistinct := List.nodup_nil
    emptyBeforeInit := fun _ => rfl }

/-! ## Emptying a cell -/

section ClearCell

variable {s : State} {h : Handle} {b x b' x' k k' : Nat}

theorem cellAt_clearCell_same : cellAt (clearCell (cellKey b x) s) b x = none := mapGet_mapErase_same _ _

theorem cellAt_clearCell_other (hx : x < 32) (hx' : x' < 32) (hne : b' ≠ b ∨ x' ≠ x) :
    cellAt (clearCell (cellKey b x) s) b' x' = cellAt s b' x' := by
  refine mapGet_mapErase_other _ _ _ fun hk => ?_
  obtain ⟨h1, h2⟩ := cellKey_inj hx' hx hk
  exact hne.elim (· h1) (· h2)

/-- A device is in at most one cell (spec R26). -/
theorem State.Inv.key_unique (hs : s.Inv) (hk : (k, h) ∈ s.table) (hk' : (k', h) ∈ s.table) : k = k' :=
  congrArg Prod.fst (List.inj_on_of_nodup_map hs.cellsDistinct hk hk' rfl)

/-- The cell an unregistration finds is the one that holds the handle (spec R196). -/
theorem State.Inv.cellOf_eq (hs : s.Inv) (hk : (k, h) ∈ s.table) : cellOf s h = some k := by
  cases hc : cellOf s h with
  | none => exact absurd rfl (registered_eq_false.mp (cellOf_none.mp hc) _ hk)
  | some k' => rw [hs.key_unique (cellOf_some hc) hk]

/-- Once its cell is emptied a handle is in no cell (spec R30). -/
theorem State.Inv.registered_clearCell (hs : s.Inv) (hk : (k, h) ∈ s.table) : registered (clearCell k s) h = false := by
  refine registered_eq_false.mpr fun ⟨k', h'⟩ he hh => ?_
  obtain rfl : h' = h := hh
  obtain ⟨hmem, hne⟩ := List.mem_filter.mp he
  exact of_decide_eq_true hne (hs.key_unique hmem hk)

theorem execHUnregister_found (hf : s.fatal = false) (hc : cellOf s h = some k) :
    exec (.hUnregister h) s = .next (respond (.bool true) (clearCell k s)) := by
  simp [exec, execHUnregister, hf, hc]

end ClearCell

/-- Settles O41: the cell found is the only one that holds the handle, and the record stays in DS. -/
theorem unregisterEmptiesTheCell : Obligations.UnregisterEmptiesTheCell := by
  intro s h b x hs hf _ hx hcell
  have hmem : (cellKey b x, h) ∈ s.table := mem_of_mapGet hcell
  have hle := Params.nslot_le s.params
  refine ⟨_, execHUnregister_found hf (hs.cellOf_eq hmem), rfl, cellAt_clearCell_same,
    fun b' x' hx' hne => cellAt_clearCell_other (by omega) (by omega) hne, ?_⟩
  have hlive : (deviceOf s h).isSome := Option.isSome_iff_ne_none.mpr (hs.cellsLive _ hmem)
  have hreg : registered (respond (.bool true) (clearCell (cellKey b x) s)) h = false := hs.registered_clearCell hmem
  simp [hostOwned, hlive, hreg]

/-! ## What each operation performs -/

/-- A change of a record that the write mask allows: the mask stays, and a data bit changes only where its mask bit is 1
(spec R28). -/
def MaskedChange (d d' : DeviceRecord) : Prop :=
  d'.mask = d.mask ∧ ∀ k, ∀ j < 8, (readByte d'.data k).getLsbD j ≠ (readByte d.data k).getLsbD j →
    (readByte d.mask k).getLsbD j = true

theorem MaskedChange.refl (d : DeviceRecord) : MaskedChange d d := ⟨rfl, fun _ _ _ hne => absurd rfl hne⟩

/-- The masked write engine changes a data bit only where its mask bit is 1 (spec R28, R162). -/
theorem cfgWrite_maskedChange (d : DeviceRecord) (r : BitVec 8) (w : Width) (v : BitVec 32) :
    MaskedChange d (cfgWrite d r w v) := by
  refine ⟨cfgWriteLanes_mask v _ _ d, fun k j hj hne => ?_⟩
  rw [cfgWrite, readByte_cfgWriteLanes] at hne
  split at hne
  · by_contra hm
    rw [BitVec.getLsbD_eq_getElem hj] at hm
    exact hne (by simp [hj, hm])
  · exact absurd rfl hne

/-- What an operation has done when it answers a next state: the effects of the block, each write with the operation that
makes it. Any operation may answer without a write (`answer`, `draw`), and the reads of custom devices are not told apart by
row: no claim here needs more. -/
inductive Performs (s : State) : Instr → State → Prop
  /-- A result, and nothing else. -/
  | answer (i : Instr) (r : Response) : Performs s i (respond r s)
  /-- A result that took a free value (spec R8). -/
  | draw (i : Instr) (r : Response) : Performs s i (respond r (countDraw s))
  /-- CA_WR32 (spec R101). -/
  | latch32 (v : BitVec 32) : Performs s (.caWr32 v) (writeLatch v s)
  /-- CA_WR8 under ZextReplace (spec R103). -/
  | latch8 (v : BitVec 8) (hp : s.params.narrowAddr = .zextReplace) :
      Performs s (.caWr8 v) (writeLatch (v.setWidth 32) s)
  /-- CA_WR16 under ZextReplace (spec R104). -/
  | latch16 (v : BitVec 16) (hp : s.params.narrowAddr = .zextReplace) :
      Performs s (.caWr16 v) (writeLatch (v.setWidth 32) s)
  /-- A read that a custom device answers: it may change the device's own record (spec R168). -/
  | customRead (i : Instr) (r : Response) (h : Handle) (d : DeviceRecord) (hc : isCustom s h = true) :
      Performs s i (respond r (setDevice h d s))
  /-- A data-port write: on a generic device a masked one (spec R134 to R136, R162, R168). -/
  | dataWrite (w : Width) (off : BitVec 2) (v : BitVec 32) (h : Handle) (d d' : DeviceRecord)
      (hd : deviceOf s h = some d) (hm : isCustom s h = false → MaskedChange d d') :
      Performs s (cdWrite w off v) (respond .done (setDevice h d' s))
  /-- DEV_WR (spec R162, R168). -/
  | devWrite (h : Handle) (w : Width) (reg : BitVec 8) (v : BitVec 32) (d : DeviceRecord) :
      Performs s (.devWr h w reg v) (respond .done (setDevice h d s))
  /-- H_INIT (spec R220). -/
  | init : Performs s .hInit (respond .done (doInit s))
  /-- H_SHUTDOWN (spec R221). -/
  | shutdown : Performs s .hShutdown (respond .done (shutDown s))
  /-- H_REGISTER that fails with a code (spec R252). -/
  | registerFails (h : Handle) (rb rs : Option Nat) (c : FailCode) :
      Performs s (.hRegister h rb rs) (registerFails c (doInit s))
  /-- H_REGISTER that fills a cell (spec R194). -/
  | registerPlaces (h : Handle) (rb rs : Option Nat) (b x : Nat) :
      Performs s (.hRegister h rb rs) (placeAt h b x (doInit s))
  /-- H_REGISTER at an occupied cell (spec R193, R253). -/
  | collision (h : Handle) (b x : Nat) (hnull : h ≠ nullHandle) (hb : b < s.params.nbus) (hx : x < s.params.nslot)
      (hc : cellAt s b x ≠ none) : Performs s (.hRegister h (some b) (some x)) (raiseFatal s)
  /-- H_UNREGISTER of a registered handle (spec R196). -/
  | unregister (h : Handle) (k : Nat) : Performs s (.hUnregister h) (respond (.bool true) (clearCell k s))
  /-- H_CREATE (spec R223). -/
  | create (vendor device : BitVec 16) :
      Performs s (.hCreate vendor device) (respond (.handle (freshHandle s))
        (issueHandle (freshHandle s) (setDevice (freshHandle s) (constructed vendor device) s)))
  /-- H_DEVSET (spec R224). -/
  | devset (h : Handle) (i data mask : BitVec 8) (d : DeviceRecord) :
      Performs s (.hDevset h i data mask) (respond .done (setDevice h (devset d i data mask) s))
  /-- H_DESTROY (spec R225). -/
  | destroy (h : Handle) : Performs s (.hDestroy h) (respond .done (removeDevice h s))

section Performs

variable {s t : State} {i : Instr}

theorem performs_of_next_eq {u : State} (hu : Performs s i u)
    (hn : Host.Outcome.next (φ := Fault) (ρ := Refusal) u = .next t) : Performs s i t := by
  cases hn
  exact hu

theorem unclaimed_performs (i : Instr) (dir : Dir) (w : Width) (port : BitVec 16) (s : State) :
    Performs s i (unclaimed dir w port s) := by
  cases dir
  · exact .draw i _
  · exact .answer i _

theorem whenClaimed_performs {dir : Dir} {w : Width} {port : BitVec 16} {o : Host.Outcome State Fault Refusal}
    (ho : o = .next t → Performs s i t) (hn : whenClaimed dir w port s o = .next t) : Performs s i t := by
  obtain ⟨-, ⟨-, hn⟩ | ⟨-, rfl⟩⟩ := whenClaimed_next hn
  · exact ho hn
  · exact unclaimed_performs i dir w port s

theorem narrowAccess_performs {dir : Dir} {w : Width} {u : State}
    (hu : s.params.narrowAddr = .zextReplace → Performs s i u) (hn : narrowAccess dir w s (.next u) = .next t) :
    Performs s i t := by
  obtain ⟨-, ⟨-, rfl⟩ | ⟨hp, hn⟩⟩ := narrowAccess_next hn
  · exact unclaimed_performs i dir w addressPort s
  · exact whenClaimed_performs (performs_of_next_eq (hu hp)) hn

theorem devRead_performs {h : Handle} {r : BitVec 8} {w : Width} (hn : devRead h r w s = .next t) : Performs s i t := by
  obtain ⟨d, -, ⟨hc, rfl⟩ | ⟨-, rfl⟩⟩ := devRead_next hn
  · exact .customRead i _ h _ hc
  · unfold genericRead
    split
    · exact .draw i _
    · exact .answer i _

theorem dataRead_performs {w : Width} {off : BitVec 2} (hn : dataRead w off s = .next t) : Performs s i t := by
  refine whenClaimed_performs (fun hn => ?_) hn
  split at hn
  · exact performs_of_next_eq (.answer i _) hn
  · exact devRead_performs hn

theorem cdWrite_performs {w : Width} {off : BitVec 2} {v : BitVec 32} (hn : exec (cdWrite w off v) s = .next t) :
    Performs s (cdWrite w off v) t := by
  rw [exec_cdWrite] at hn
  refine whenClaimed_performs (fun hn => ?_) hn
  split at hn
  · exact performs_of_next_eq (.answer _ _) hn
  · next h r _ =>
    obtain ⟨d, hd, rfl⟩ := devWrite_next hn
    refine .dataWrite w off v h d _ hd fun hc => ?_
    simpa [hc] using cfgWrite_maskedChange d r w (truncTo w v)

/-- A narrow data-port write is the CD_WR row of its width (spec R79). -/
theorem cdWr8_eq_cdWrite (off : BitVec 2) (v : BitVec 8) : Instr.cdWr8 off v = cdWrite .w1 off (v.setWidth 32) := by
  simp [cdWrite, dataPortInstr]

theorem cdWr16_eq_cdWrite (off : BitVec 2) (v : BitVec 16) : Instr.cdWr16 off v = cdWrite .w2 off (v.setWidth 32) := by
  simp [cdWrite, dataPortInstr]

theorem cdWr32_eq_cdWrite (off : BitVec 2) (v : BitVec 32) : Instr.cdWr32 off v = cdWrite .w4 off v := rfl

theorem devWr_performs {h : Handle} {w : Width} {reg : BitVec 8} {v : BitVec 32}
    (hn : execDevWr h w reg v s = .next t) : Performs s (.devWr h w reg v) t := by
  obtain ⟨-, hn⟩ := whenAlive_next hn
  obtain ⟨d, -, rfl⟩ := devWrite_next hn
  exact .devWrite h w reg v _

theorem placeAuto_performs (h : Handle) (rb rs rb' rs' : Option Nat) (s : State) :
    Performs s (.hRegister h rb rs) (placeAuto h rb' rs' (doInit s)) := by
  unfold placeAuto
  split
  · exact .registerPlaces h rb rs _ _
  · exact .registerFails h rb rs _

theorem place_performs {h : Handle} {rb rs : Option Nat} (hnull : h ≠ nullHandle)
    (hrb : ∀ b0, rb = some b0 → b0 < s.params.nbus) (hrs : ∀ x0, rs = some x0 → x0 < s.params.nslot) :
    Performs s (.hRegister h rb rs) (place h rb rs s (doInit s)) := by
  unfold place
  split
  · next b x =>
    unfold placeExplicit
    split
    · exact .registerPlaces h _ _ b x
    · next hc => exact .collision h b x hnull (hrb _ rfl) (hrs _ rfl) (by simpa using hc)
  all_goals exact placeAuto_performs _ _ _ _ _ _

theorem hRegister_performs {h : Handle} {rb rs : Option Nat} (hn : execHRegister h rb rs s = .next t) :
    Performs s (.hRegister h rb rs) t := by
  obtain ⟨-, hn⟩ := whenAlive_next hn
  split at hn
  · exact performs_of_next_eq (.registerFails h rb rs _) hn
  next hnull =>
  split at hn
  · cases hn
  split at hn
  · cases hn
  split at hn
  · exact performs_of_next_eq (.registerFails h rb rs _) hn
  next hrb =>
  split at hn
  · exact performs_of_next_eq (.registerFails h rb rs _) hn
  next hrs =>
  rw [Bool.not_eq_true, beyondTable_eq_false] at hrb hrs
  exact performs_of_next_eq (place_performs hnull hrb hrs) hn

theorem hUnregister_performs {h : Handle} (hn : execHUnregister h s = .next t) : Performs s (.hUnregister h) t := by
  obtain ⟨-, hn⟩ := whenAlive_next hn
  split at hn
  · exact performs_of_next_eq (.unregister h _) hn
  · exact performs_of_next_eq (.answer _ _) hn

/-- What H_DEVSET can do (spec R224). -/
theorem execHDevset_next {h : Handle} {i data mask : BitVec 8} (hn : execHDevset h i data mask s = .next t) :
    ∃ d, t = respond .done (setDevice h (devset d i data mask) s) := by
  obtain ⟨-, hn⟩ := whenAlive_next hn
  split at hn
  · cases hn
  · next d _ => exact ⟨d, (Host.Outcome.next.inj hn).symm⟩

theorem hDevset_performs {h : Handle} {i data mask : BitVec 8} (hn : execHDevset h i data mask s = .next t) :
    Performs s (.hDevset h i data mask) t := by
  obtain ⟨d, rfl⟩ := execHDevset_next hn
  exact .devset h i data mask d

theorem hDestroy_performs {h : Handle} (hn : execHDestroy h s = .next t) : Performs s (.hDestroy h) t := by
  obtain ⟨-, hn⟩ := whenAlive_next hn
  split at hn
  · cases hn
  split at hn
  · cases hn
  · exact performs_of_next_eq (.destroy h) hn

/-- Every operation that answers a next state has performed one of its own effects. -/
theorem exec_performs (hn : exec i s = .next t) : Performs s i t := by
  cases i with
  | caRd32 => exact whenClaimed_performs (performs_of_next_eq (.answer _ _)) hn
  | caWr32 v => exact whenClaimed_performs (performs_of_next_eq (.latch32 v)) hn
  | caRd8 => exact narrowAccess_performs (fun _ => .answer _ _) hn
  | caRd16 => exact narrowAccess_performs (fun _ => .answer _ _) hn
  | caWr8 v => exact narrowAccess_performs (.latch8 v) hn
  | caWr16 v => exact narrowAccess_performs (.latch16 v) hn
  | cdRd8 off => exact dataRead_performs hn
  | cdRd16 off => exact dataRead_performs hn
  | cdRd32 off => exact dataRead_performs hn
  | cdWr8 off v => rw [cdWr8_eq_cdWrite] at hn ⊢; exact cdWrite_performs hn
  | cdWr16 off v => rw [cdWr16_eq_cdWrite] at hn ⊢; exact cdWrite_performs hn
  | cdWr32 off v => rw [cdWr32_eq_cdWrite] at hn ⊢; exact cdWrite_performs hn
  | devRd h w reg => exact devRead_performs (whenAlive_next hn).2
  | devWr h w reg v => exact devWr_performs hn
  | hInit => exact performs_of_next_eq .init (whenAlive_next hn).2
  | hShutdown => exact performs_of_next_eq .shutdown (whenAlive_next hn).2
  | hRegister h rb rs => exact hRegister_performs hn
  | hUnregister h => exact hUnregister_performs hn
  | hIsInit => exact performs_of_next_eq (.answer _ _) (whenAlive_next hn).2
  | hCreate vendor device => exact performs_of_next_eq (.create vendor device) (whenAlive_next hn).2
  | hDevset h i data mask => exact hDevset_performs hn
  | hDestroy h => exact hDestroy_performs hn

/-- An operation answers a next state only while the fatal flag is clear (spec R254). -/
theorem exec_next_alive (hn : exec i s = .next t) : s.fatal = false := by
  cases i <;> exact (whenAlive_next hn).1

end Performs

/-! ## Who writes what -/

/-- Settles O17: of the effects, the latch writes and shutdown alone change the latch. -/
theorem latchPersistsUntilOverwritten : Obligations.LatchPersistsUntilOverwritten := by
  intro i s t hn hwr32 hshut hnarrow
  cases exec_performs hn with
  | latch32 v => exact absurd rfl (hwr32 v)
  | latch8 v hp => exact absurd rfl ((hnarrow.resolve_right (not_not.mpr hp)).1 v)
  | latch16 v hp => exact absurd rfl ((hnarrow.resolve_right (not_not.mpr hp)).2 v)
  | shutdown => exact absurd rfl hshut
  | _ => simp [registerFails, placeAt]

/-- Settles O54: of the effects, DoInit alone sets `init` and shutdown alone clears it. -/
theorem initChangesOnlyByLifecycleCalls : Obligations.InitChangesOnlyByLifecycleCalls := by
  intro i s t hn
  cases exec_performs hn with
  | init => exact ⟨fun _ _ => .inl rfl, by simp⟩
  | registerFails h rb rs c => exact ⟨fun _ _ => .inr ⟨h, rb, rs, rfl⟩, by simp [registerFails]⟩
  | registerPlaces h rb rs b x => exact ⟨fun _ _ => .inr ⟨h, rb, rs, rfl⟩, by simp [placeAt]⟩
  | shutdown => exact ⟨by simp, fun _ _ => rfl⟩
  | _ => simp +contextual

/-- Settles O55: of the effects, the collision alone sets the flag, which was clear before. -/
theorem fatalOnlyByCollision : Obligations.FatalOnlyByCollision := by
  intro i s t hn hfatal
  have halive := exec_next_alive hn
  cases exec_performs hn with
  | collision h b x hnull hb hx hc => exact ⟨h, b, x, rfl, hnull, hb, hx, hc, rfl⟩
  | _ => simp [registerFails, placeAt, halive] at hfatal

/-- Without custom handles every device is generic (spec R9). -/
theorem isCustom_of_no_custom {s : State} (hp : s.params.customHandles = []) (h : Handle) : isCustom s h = false := by
  simp [isCustom, hp]

/-- The table is written by registration, unregistration and shutdown alone (spec R25). -/
theorem Performs.table_eq {s t : State} {i : Instr} (hp : Performs s i t) (hreg : ∀ h rb rs, i ≠ .hRegister h rb rs)
    (hunreg : ∀ h, i ≠ .hUnregister h) (hshut : i ≠ .hShutdown) : t.table = s.table := by
  cases hp with
  | registerFails h rb rs c => exact absurd rfl (hreg h rb rs)
  | registerPlaces h rb rs b x => exact absurd rfl (hreg h rb rs)
  | unregister h k => exact absurd rfl (hunreg h)
  | shutdown => exact absurd rfl hshut
  | _ => simp

/-- Settles O56: of the effects, those of the listed operations alone touch the table and, no device being custom, the
store. -/
theorem tableAndStoreWriters : Obligations.TableAndStoreWriters := by
  intro i s t hn
  refine ⟨(exec_performs hn).table_eq, fun hcreate hdestroy hshut hdevset hdevWr hcdWr hgeneric => ?_⟩
  cases exec_performs hn with
  | customRead i r h d hc => simp [isCustom_of_no_custom hgeneric h] at hc
  | dataWrite w off v h d d' hd hm => exact absurd rfl (hcdWr w off v)
  | devWrite h w reg v d => exact absurd rfl (hdevWr h w reg v)
  | create vendor device => exact absurd rfl (hcreate vendor device)
  | devset h k data mask d => exact absurd rfl (hdevset h k data mask)
  | destroy h => exact absurd rfl (hdestroy h)
  | shutdown => exact absurd rfl hshut
  | _ => simp [registerFails, placeAt]

/-! ## What a guest changes in a record -/

/-- Setting the record of a custom device, or a masked change of the record of a generic one, is a masked change of every
generic device (spec R28). -/
theorem maskedChange_setDevice {s : State} {h h' : Handle} {d d' : DeviceRecord} (r : Response)
    (hm : isCustom s h' = false → ∀ d0, deviceOf s h' = some d0 → MaskedChange d0 d') (hd : deviceOf s h = some d)
    (hc : isCustom s h = false) :
    ∃ d1, deviceOf (respond r (setDevice h' d' s)) h = some d1 ∧ MaskedChange d d1 := by
  by_cases he : h = h'
  · subst he
    exact ⟨d', by simp, hm hc d hd⟩
  · exact ⟨d, by simp [he, hd], .refl d⟩

/-- A guest transaction makes at most a masked change to the record of a generic device (spec R28). -/
theorem Performs.guest_maskedChange {s t : State} {i : Instr} {h : Handle} {d : DeviceRecord} (hp : Performs s i t)
    (hg : isGuest i = true) (hd : deviceOf s h = some d) (hc : isCustom s h = false) :
    ∃ d', deviceOf t h = some d' ∧ MaskedChange d d' := by
  cases hp with
  | answer | draw | latch32 | latch8 | latch16 => exact ⟨d, by simpa using hd, .refl d⟩
  | customRead i r h' d' hc' => exact maskedChange_setDevice r (by simp [hc']) hd hc
  | dataWrite w off v h' d0 d' hd0 hm =>
    refine maskedChange_setDevice .done (fun hc' d1 hd1 => ?_) hd hc
    obtain rfl : d0 = d1 := Option.some.inj (hd0.symm.trans hd1)
    exact hm hc'
  | _ => cases hg

/-- Settles O58: the guest writes a generic device through the masked write engine alone, H_DEVSET sets its byte as given. -/
theorem guestChangesOnlyMaskedBits : Obligations.GuestChangesOnlyMaskedBits := by
  refine ⟨fun s t i h d hg hn hd hc => ?guest, fun s t h index data mask hn => ?devset⟩
  case guest =>
    obtain ⟨d', hd', hmask, hbits⟩ := (exec_performs hn).guest_maskedChange hg hd hc
    exact ⟨d', hd', hmask, fun k _ => hbits k⟩
  case devset =>
    obtain ⟨d, rfl⟩ := execHDevset_next hn
    exact ⟨rfl, _, deviceOf_setDevice_same s h _, readByte_writeByte_same _ _ _⟩

end Sys2Proof.Machine

/-! PROOFS of the family 20_memory. What a generic device does with a read and a write is said once, per dispatch
(`devRead_generic`, `devWrite_generic`) and per byte; the data-port laws (O22, O23) and the laws of splitting and repeating
an access (O30 to O32) follow, then what a transaction does not reach (O24, O59, O8). -/

namespace Sys2Proof.Machine

open Sys2Proof

/-! ## A generic device -/

section Generic

variable {s : State} {h : Handle} {d : DeviceRecord} (w : Width) (r : BitVec 8) (v : BitVec 32)

theorem devRead_generic (hd : deviceOf s h = some d) (hc : isCustom s h = false) :
    devRead h r w s = .next (genericRead h d r w s) := by
  simp [devRead, hd, hc]

theorem devWrite_generic (hd : deviceOf s h = some d) (hc : isCustom s h = false) :
    devWrite h r w v s = .next (respond .done (setDevice h (cfgWrite d r w v) s)) := by
  simp [devWrite, hd, hc]

end Generic

/-! ### Reading -/

/-- A read that ends below 256 takes no draw, one that runs past the end takes one (spec R161, R165). -/
theorem genericRead_eq (h : Handle) (d : DeviceRecord) (r : BitVec 8) (w : Width) (s : State) :
    genericRead h d r w s = { s with
      draws := if r.toNat + w.bytes ≤ 256 then s.draws else s.draws + 1
      outbox := .data (valueOf w (cfgRead s.draws h d r w)) :: s.outbox } := by
  by_cases hle : r.toNat + w.bytes ≤ 256
  · have hpast : runsPastEnd r w = false := decide_eq_false (by omega)
    simp [genericRead, hpast, respond, hle]
  · have hpast : runsPastEnd r w = true := decide_eq_true (by omega)
    simp [genericRead, hpast, respond, countDraw, hle]

/-- Below 256 a generic read finds the stored byte (spec R161, R166). -/
theorem cfgByte_of_lt {n : Nat} {h : Handle} {d : DeviceRecord} {i : Nat} (hi : i < 256) :
    cfgByte n h d i = readByte d.data i := if_pos (by omega)

/-- Joining a byte above the n bits read so far appends it to them (spec R52). -/
theorem or_shiftLeft_eq_append {n : Nat} (low : BitVec n) (b : Byte) :
    low.setWidth 32 ||| b.setWidth 32 <<< n = (b ++ low).setWidth 32 := by
  ext j hj
  by_cases hn : j < n
  · simp [BitVec.getLsbD_append, hn]
  · simp [BitVec.getLsbD_append, hn, low.getLsbD_of_ge j (by omega)]

section ReadValues

variable (n : Nat) (h : Handle) (d : DeviceRecord) (r : BitVec 8)

theorem cfgReadLanes_one (r : Nat) : cfgReadLanes n h d r 1 = (cfgByte n h d r).setWidth 32 := by
  simp [cfgReadLanes]

theorem cfgReadLanes_two (r : Nat) :
    cfgReadLanes n h d r 2 = (cfgByte n h d (r + 1) ++ cfgByte n h d r).setWidth 32 := by
  rw [cfgReadLanes, cfgReadLanes_one, or_shiftLeft_eq_append]

theorem cfgReadLanes_four (r : Nat) : cfgReadLanes n h d r 4 =
    cfgByte n h d (r + 3) ++ cfgByte n h d (r + 2) ++ cfgByte n h d (r + 1) ++ cfgByte n h d r := by
  rw [cfgReadLanes, cfgReadLanes, cfgReadLanes_two, or_shiftLeft_eq_append, or_shiftLeft_eq_append,
    BitVec.setWidth_eq, BitVec.append_assoc, BitVec.append_assoc]
  rfl

theorem valueOf_cfgRead_w1 : valueOf .w1 (cfgRead n h d r .w1) = .b8 (readByte d.data r.toNat) := by
  rw [cfgRead, Width.bytes, cfgReadLanes_one, cfgByte_of_lt r.isLt, valueOf, BitVec.setWidth_setWidth_of_le _ (by decide),
    BitVec.setWidth_eq]

theorem valueOf_cfgRead_w2 : valueOf .w2 (cfgRead n h d r .w2) =
    .b16 (cfgByte n h d (r.toNat + 1) ++ cfgByte n h d r.toNat) := by
  rw [cfgRead, Width.bytes, cfgReadLanes_two, valueOf, BitVec.setWidth_setWidth_of_le _ (by decide), BitVec.setWidth_eq]

theorem valueOf_cfgRead_w4 : valueOf .w4 (cfgRead n h d r .w4) =
    .b32 (cfgByte n h d (r.toNat + 3) ++ cfgByte n h d (r.toNat + 2) ++ cfgByte n h d (r.toNat + 1) ++
      cfgByte n h d r.toNat) := by
  rw [cfgRead, Width.bytes, cfgReadLanes_four, valueOf]

end ReadValues

/-- A claimed data-port read that reaches a generic device is the generic read at the register index (spec R131 to R133). -/
theorem dataRead_generic {s : State} {off : BitVec 2} {h : Handle} {d : DeviceRecord} (w : Width) (hf : s.fatal = false)
    (hi : s.init = true) (ht : targetIs s h) (hd : deviceOf s h = some d) (hc : isCustom s h = false) :
    dataRead w off s = .next (genericRead h d (decodeLatch s.latch off).reg w s) := by
  rw [dataRead_present w _ hf hi ht (decodeLatch_reg_toNat _ _), devRead_generic w _ hd hc]

/-- Settles O22: the multiplexer routes to the generic read, whose value is the bytes it finds, appended. -/
theorem dataPortReadsReturnStoredBytes : Obligations.DataPortReadsReturnStoredBytes := by
  rintro s off h d r hf hi ht hd hc rfl
  have hread := fun w => (dataRead_generic (off := off) w hf hi ht hd hc).trans (congrArg _ (genericRead_eq h d _ w s))
  rw [← decodeLatch_reg_toNat]
  generalize (decodeLatch s.latch off).reg = r at hread ⊢
  have hr : r.toNat + 1 ≤ 256 := r.isLt
  refine ⟨?w1, ?w2, ?w4⟩
  case w1 => exact (hread .w1).trans (by rw [valueOf_cfgRead_w1, Width.bytes, if_pos hr])
  case w2 => exact (hread .w2).trans (by rw [valueOf_cfgRead_w2, Width.bytes])
  case w4 => exact (hread .w4).trans (by rw [valueOf_cfgRead_w4, Width.bytes])

/-- An index that does not run past 255 does not wrap (spec R53). -/
theorem toNat_add_ofNat_index {reg : BitVec 8} {k : Nat} (hk : reg.toNat + k < 256) :
    (reg + BitVec.ofNat 8 k).toNat = reg.toNat + k := by
  rw [BitVec.toNat_add, BitVec.toNat_ofNat]
  omega

section DirectRead

variable {s : State} {h : Handle} {d : DeviceRecord} (hf : s.fatal = false) (hd : deviceOf s h = some d)
  (hc : isCustom s h = false)
include hf hd hc

/-- DEV_RD inside the space of a generic device returns the value and changes nothing (spec R161). -/
theorem exec_devRd_inside {w : Width} {r : BitVec 8} (hle : r.toNat + w.bytes ≤ 256) :
    exec (.devRd h w r) s = .next { s with outbox := .data (valueOf w (cfgRead s.draws h d r w)) :: s.outbox } := by
  refine ((whenAlive_alive hf _).trans (devRead_generic w r hd hc)).trans ?_
  rw [genericRead_eq, if_pos hle]

/-- The byte a one-byte DEV_RD returns is the byte a wide read finds at that index (spec R53). -/
theorem eq_cfgByte_of_exec_devRd {reg : BitVec 8} {k : Nat} {b : Byte} (hk : reg.toNat + k < 256)
    (hb : exec (.devRd h .w1 (reg + BitVec.ofNat 8 k)) s = .next { s with outbox := .data (.b8 b) :: s.outbox }) :
    b = cfgByte s.draws h d (reg.toNat + k) := by
  rw [exec_devRd_inside hf hd hc (BitVec.isLt _), valueOf_cfgRead_w1, toNat_add_ofNat_index hk, ← cfgByte_of_lt hk] at hb
  simpa using hb.symm

end DirectRead

/-- Settles O31: each one-byte read returns the byte the wide read finds there, and the wide read appends those bytes. -/
theorem wideReadIsByteReads : Obligations.WideReadIsByteReads := by
  intro s h d reg b hf hd hc
  refine ⟨fun hbytes hle => ?w2, fun hbytes hle => ?w4⟩
  all_goals have hb := fun k hk => eq_cfgByte_of_exec_devRd hf hd hc (by omega) (hbytes k hk)
  case w2 =>
    rw [exec_devRd_inside hf hd hc hle, valueOf_cfgRead_w2, hb 0 (by decide), hb 1 (by decide)]
    rfl
  case w4 =>
    rw [exec_devRd_inside hf hd hc hle, valueOf_cfgRead_w4, hb 0 (by decide), hb 1 (by decide), hb 2 (by decide),
      hb 3 (by decide)]
    rfl

/-! ### Writing -/

theorem lane_eq_setWidth (v : BitVec 32) (k : Nat) : lane v k = (v >>> (8 * k)).setWidth 8 := by
  ext j hj
  simp [lane]

/-- A lane below the width of an access is not cut off by it (spec R52, R162). -/
theorem lane_truncTo {w : Width} {k : Nat} (v : BitVec 32) (hk : k < w.bytes) : lane (truncTo w v) k = lane v k := by
  have hle : 8 * k + 8 ≤ 8 * w.bytes := by omega
  cases w with
  | w1 | w2 =>
    exact (BitVec.extractLsb'_setWidth_of_le (hle.trans (by decide))).trans (BitVec.extractLsb'_setWidth_of_le hle)
  | w4 => rfl

/-- Below 256 the masked write engine leaves byte i as `maskedByte` gives it (spec R162, R164). -/
theorem readByte_cfgWrite (d : DeviceRecord) (r : BitVec 8) (w : Width) (v : BitVec 32) {i : Nat} (hi : i ≤ 255) :
    readByte (cfgWrite d r w v).data i = maskedByte d r.toNat w.bytes v i := by
  simp [cfgWrite, readByte_cfgWriteLanes, maskedByte, lane_eq_setWidth, hi]

/-- A claimed data-port write that reaches a generic device is a masked write at the register index, and changes that device
alone (spec R134 to R136, R162). -/
theorem dataWrite_generic {s : State} {off : BitVec 2} {h : Handle} {d : DeviceRecord} (w : Width) (v : BitVec 32)
    (hf : s.fatal = false) (hi : s.init = true) (ht : targetIs s h) (hd : deviceOf s h = some d)
    (hc : isCustom s h = false) :
    ∃ t d', dataWrite w off v s = .next t ∧ OnlyDevice s t h d' .done ∧ d'.mask = d.mask ∧
      ∀ i ≤ 255, readByte d'.data i = maskedByte d (registerIndex s.latch off) w.bytes v i := by
  refine ⟨_, _, ?_, onlyDevice_respond_setDevice _ h (cfgWrite d (decodeLatch s.latch off).reg w v) s,
    cfgWriteLanes_mask _ _ _ _, fun i hle => ?_⟩
  · rw [dataWrite_present w _ v hf hi ht (decodeLatch_reg_toNat _ _), devWrite_generic w _ v hd hc]
  · rw [readByte_cfgWrite _ _ _ _ hle, decodeLatch_reg_toNat]

/-- Settles O23, by the masked write of each width. -/
theorem dataPortWritesObeyTheMask : Obligations.DataPortWritesObeyTheMask := by
  rintro s off h d r v u x hf hi ht hd hc rfl
  exact ⟨dataWrite_generic .w1 _ hf hi ht hd hc, dataWrite_generic .w2 _ hf hi ht hd hc,
    dataWrite_generic .w4 _ hf hi ht hd hc⟩

/-- Writing the same byte again under the same mask changes nothing (spec R60). -/
theorem maskedWrite_idem (a m v : Byte) :
    ((a &&& ~~~m ||| v &&& m) &&& ~~~m) ||| v &&& m = a &&& ~~~m ||| v &&& m := by
  ext j hj
  simp only [BitVec.getElem_or, BitVec.getElem_and, BitVec.getElem_not]
  cases m[j] <;> simp

/-- The masked write engine finds every byte of a repeated write as the first write left it (spec R60, R162). -/
theorem readByte_cfgWrite_repeated (d : DeviceRecord) (r : BitVec 8) (w : Width) (v : BitVec 32) (i : Nat) :
    readByte (cfgWrite (cfgWrite d r w v) r w v).data i = readByte (cfgWrite d r w v).data i := by
  simp only [cfgWrite, readByte_cfgWriteLanes, cfgWriteLanes_mask]
  split
  · exact maskedWrite_idem _ _ _
  · rfl

/-- DEV_WR of a generic device that answers a next state has made the masked write of the value's low 8 * w bits (spec
R162). -/
theorem exec_devWr_generic_next {s t : State} {h : Handle} {w : Width} {reg : BitVec 8} {v : BitVec 32}
    (hc : isCustom s h = false) (hn : exec (.devWr h w reg v) s = .next t) :
    ∃ d, deviceOf s h = some d ∧ t = respond .done (setDevice h (cfgWrite d reg w (truncTo w v)) s) := by
  obtain ⟨d, hd, rfl⟩ := devWrite_next (whenAlive_next hn).2
  exact ⟨d, hd, by simp [hc]⟩

/-- Settles O32: the second write finds every byte of the device as the first one left it, and reaches no other device. -/
theorem repeatedWriteChangesNothing : Obligations.RepeatedWriteChangesNothing := by
  intro s t u h w reg v hc ht hu
  obtain ⟨d, -, rfl⟩ := exec_devWr_generic_next hc ht
  obtain ⟨d', hd', rfl⟩ := exec_devWr_generic_next (by exact hc) hu
  obtain rfl : cfgWrite d reg w (truncTo w v) = d' := by simpa using hd'
  exact ⟨_, _, hd', deviceOf_setDevice_same _ h _, cfgWriteLanes_mask _ _ _ _,
    fun i _ => readByte_cfgWrite_repeated d reg w _ i, fun h' hne => deviceOf_setDevice_other _ h h' _ hne⟩

/-! ### A wide write by its bytes -/

/-- The one-byte DEV_WR of byte k of `v`, for a wide write of `v` at `reg` (spec R53). -/
def byteWrite (h : Handle) (reg : BitVec 8) (v : BitVec 32) (k : Nat) : Instr :=
  .devWr h .w1 (reg + BitVec.ofNat 8 k) ((v >>> (8 * k)) &&& 0xFF)

theorem exec_byteWrite {s : State} {h : Handle} {d : DeviceRecord} {reg : BitVec 8} {k : Nat} (v : BitVec 32)
    (hf : s.fatal = false) (hd : deviceOf s h = some d) (hc : isCustom s h = false) (hk : reg.toNat + k ≤ 255) :
    exec (byteWrite h reg v k) s =
      .next (respond .done (setDevice h (maskedWriteByte d (reg.toNat + k) (lane v k)) s)) := by
  have hlane : lane (truncTo .w1 ((v >>> (8 * k)) &&& 0xFF)) 0 = lane v k := by
    rw [lane_truncTo _ (by decide), lane_eq_setWidth, lane_eq_setWidth, Nat.mul_zero, BitVec.ushiftRight_zero,
      BitVec.setWidth_and]
    exact BitVec.and_allOnes
  refine ((whenAlive_alive hf _).trans (devWrite_generic .w1 _ _ hd hc)).trans ?_
  rw [cfgWrite, Width.bytes, cfgWriteLanes, cfgWriteLanes, toNat_add_ofNat_index (by omega), Nat.add_zero, hlane]

/-- One-byte writes of the bytes of `v` that `ks` lists, in the order of the list and with repetitions, leave at each index
they reach the masked byte of `v`, and the rest as it was (spec R53). -/
theorem execAll_byteWrites {h : Handle} {reg : BitVec 8} (v : BitVec 32) {ks : List Nat}
    (hks : ∀ k ∈ ks, reg.toNat + k ≤ 255) {s : State} {d : DeviceRecord} (hf : s.fatal = false)
    (hd : deviceOf s h = some d) (hc : isCustom s h = false) :
    ∃ u du, execAll (ks.map (byteWrite h reg v)) s = .next u ∧ deviceOf u h = some du ∧ du.mask = d.mask ∧
      (∀ i, readByte du.data i =
        if reg.toNat ≤ i ∧ i - reg.toNat ∈ ks then
          (readByte d.data i &&& ~~~ readByte d.mask i) ||| (lane v (i - reg.toNat) &&& readByte d.mask i)
        else readByte d.data i) ∧
      ∀ h', h' ≠ h → deviceOf u h' = deviceOf s h' := by
  induction ks generalizing s d with
  | nil => exact ⟨s, d, rfl, hd, rfl, fun i => by simp, fun h' _ => rfl⟩
  | cons k ks ih =>
    have hk : reg.toNat + k ≤ 255 := hks k List.mem_cons_self
    obtain ⟨u, du, hu, hdu, hmask, hbytes, hother⟩ := ih (fun k' hk' => hks k' (List.mem_cons_of_mem k hk'))
      (s := respond .done (setDevice h (maskedWriteByte d (reg.toNat + k) (lane v k)) s)) hf
      (deviceOf_setDevice_same s h _) hc
    refine ⟨u, du, ?_, hdu, by simpa using hmask, fun i => ?_, fun h' hne => by simpa [hne] using hother h' hne⟩
    · rw [List.map_cons, execAll, exec_byteWrite v hf hd hc hk]
      exact hu
    · rw [hbytes i, maskedWriteByte_mask, readByte_maskedWriteByte]
      by_cases hi : i = reg.toNat + k
      · subst hi
        by_cases hmem : k ∈ ks
        · simp [hmem, hk, maskedWrite_idem]
        · simp [hmem, hk]
      · have hne : reg.toNat ≤ i → i - reg.toNat ≠ k := by omega
        by_cases hle : reg.toNat ≤ i <;> simp [hi, hle, hne]

/-- Settles O30: both leave, at each index of the range, the masked byte of the value. -/
theorem wideWriteIsByteWritesInAnyOrder : Obligations.WideWriteIsByteWritesInAnyOrder := by
  intro s h d w reg v ks hf hd hc hle hperm
  have hmem : ∀ k, k ∈ ks ↔ k < w.bytes := fun k => hperm.mem_iff.trans List.mem_range
  obtain ⟨u, du, hu, hdu, hmask, hbytes, hother⟩ := execAll_byteWrites v (reg := reg) (ks := ks)
    (fun k hk => by have := (hmem k).mp hk; omega) hf hd hc
  refine ⟨_, u, _, du, (whenAlive_alive hf _).trans (devWrite_generic w reg _ hd hc), hu,
    deviceOf_setDevice_same s h _, hdu, ?_, fun i hi => ?_, fun h' hne => ?_⟩
  · rw [hmask]
    exact cfgWriteLanes_mask _ _ _ _
  · rw [hbytes, cfgWrite, readByte_cfgWriteLanes]
    by_cases hin : reg.toNat ≤ i ∧ i < reg.toNat + w.bytes
    · have hk : i - reg.toNat < w.bytes := by omega
      simp [hin, hi, hmem, hk, lane_truncTo]
    · have hout : ¬ (reg.toNat ≤ i ∧ i - reg.toNat < w.bytes) := by omega
      simp [← and_assoc, hin, hmem, hout]
  · rw [hother h' hne]
    exact deviceOf_setDevice_other s h h' _ hne

/-! ## What a data-port access reads of the latch -/

/-- Two latches that agree on EN, bus, slot and register decode to the same of each (spec R77, R83). -/
theorem decodeLatch_congr {l l' : BitVec 32} (off : BitVec 2) (hl : l &&& 0x80FFF8FC = l' &&& 0x80FFF8FC) :
    decodeLatch l off = { decodeLatch l' off with fn := (decodeLatch l off).fn } := by
  have hfield : ∀ a n, l.extractLsb' a n &&& (0x80FFF8FC : BitVec 32).extractLsb' a n =
      l'.extractLsb' a n &&& (0x80FFF8FC : BitVec 32).extractLsb' a n := fun a n => by
    simpa only [BitVec.extractLsb'_and] using congrArg (BitVec.extractLsb' a n) hl
  have hen : l.getLsbD 31 = l'.getLsbD 31 := by
    simpa using congrArg (BitVec.getLsbD · 31) hl
  have hbus : l.extractLsb' 16 8 = l'.extractLsb' 16 8 :=
    (BitVec.and_allOnes.symm.trans (hfield 16 8)).trans BitVec.and_allOnes
  have hslot : l.extractLsb' 11 5 = l'.extractLsb' 11 5 :=
    (BitVec.and_allOnes.symm.trans (hfield 11 5)).trans BitVec.and_allOnes
  have hreg : l.extractLsb' 0 8 &&& 0xFC = l'.extractLsb' 0 8 &&& 0xFC := hfield 0 8
  simp only [decodeLatch, hen, hbus, hslot, hreg]

/-- The routing reads EN, bus, slot and register of the latch, and not the function number (spec R51, R130). -/
theorem route_withLatch {s : State} {l : BitVec 32} (off : BitVec 2) (hl : l &&& 0x80FFF8FC = s.latch &&& 0x80FFF8FC) :
    route { s with latch := l } off = route s off := by
  have hdec := decodeLatch_congr off hl
  unfold route
  rw [hdec]
  rfl

section WithLatch

variable {s t : State} {l : BitVec 32}

theorem unclaimed_withLatch (dir : Dir) (w : Width) (port : BitVec 16) (s : State) (l : BitVec 32) :
    unclaimed dir w port { s with latch := l } = { unclaimed dir w port s with latch := l } := by
  cases dir <;> rfl

theorem devRead_withLatch {h : Handle} {r : BitVec 8} {w : Width} (hn : devRead h r w s = .next t) :
    devRead h r w { s with latch := l } = .next { t with latch := l } := by
  obtain ⟨d, hd, ⟨hc, rfl⟩ | ⟨hc, rfl⟩⟩ := devRead_next hn
  · exact devRead_custom w r hd hc
  · rw [devRead_generic w r (by exact hd) (by exact hc), genericRead_eq, genericRead_eq]

theorem devWrite_withLatch {h : Handle} {r : BitVec 8} {w : Width} {v : BitVec 32} (hn : devWrite h r w v s = .next t) :
    devWrite h r w v { s with latch := l } = .next { t with latch := l } := by
  obtain ⟨d, hd, rfl⟩ := devWrite_next hn
  have hd' : deviceOf { s with latch := l } h = some d := hd
  rw [devWrite, hd']
  rfl

/-- A claimed access that does not read the latch answers the same under another one, and so does an unclaimed access. -/
theorem whenClaimed_withLatch {dir : Dir} {w : Width} {port : BitVec 16} {o o' : Host.Outcome State Fault Refusal}
    (ho : o = .next t → o' = .next { t with latch := l }) (hn : whenClaimed dir w port s o = .next t) :
    whenClaimed dir w port { s with latch := l } o' = .next { t with latch := l } := by
  obtain ⟨hf, ⟨hi, hn⟩ | ⟨hi, rfl⟩⟩ := whenClaimed_next hn
  · exact (whenClaimed_claimed o' (by exact hf) (by exact hi)).trans (ho hn)
  · rw [whenClaimed_unclaimed o' (by exact hf) (by exact hi), unclaimed_withLatch]

end WithLatch

/-- Settles O24: the routing is the same, and the device and the platform do not see the latch. -/
theorem functionNumberSelectsNothing : Obligations.FunctionNumberSelectsNothing := by
  intro s t l w off v hl
  refine ⟨fun hn => ?read, fun hn => ?write⟩
  case read =>
    rw [exec_cdRead] at hn ⊢
    refine whenClaimed_withLatch (fun ho => ?_) hn
    rw [route_withLatch off hl]
    split at ho
    · cases ho
      rfl
    · exact devRead_withLatch ho
  case write =>
    rw [exec_cdWrite] at hn ⊢
    refine whenClaimed_withLatch (fun ho => ?_) hn
    rw [route_withLatch off hl]
    split at ho
    · cases ho
      rfl
    · exact devWrite_withLatch ho

/-! ## What a guest transaction does not reach -/

/-- What O59 says of two states: the guest has left everything that is the host's (spec R62). -/
def KeepsHostSide (s t : State) : Prop :=
  t.table = s.table ∧ t.init = s.init ∧ t.fatal = s.fatal ∧ t.params = s.params ∧ t.issued = s.issued ∧
    t.handleSupply = s.handleSupply ∧ t.inbox = s.inbox ∧ ∀ h, deviceOf t h = none ↔ deviceOf s h = none

section KeepsHostSide

variable {s t : State}

theorem respond_keepsHostSide (r : Response) (s : State) : KeepsHostSide s (respond r s) := by simp [KeepsHostSide]

theorem writeLatch_keepsHostSide (v : BitVec 32) (s : State) : KeepsHostSide s (writeLatch v s) := by simp [KeepsHostSide]

theorem unclaimed_keepsHostSide (dir : Dir) (w : Width) (port : BitVec 16) (s : State) :
    KeepsHostSide s (unclaimed dir w port s) := by simp [KeepsHostSide]

theorem genericRead_keepsHostSide (h : Handle) (d : DeviceRecord) (r : BitVec 8) (w : Width) (s : State) :
    KeepsHostSide s (genericRead h d r w s) := by
  rw [genericRead_eq]
  exact ⟨rfl, rfl, rfl, rfl, rfl, rfl, rfl, fun _ => Iff.rfl⟩

/-- Replacing the record of a live device leaves the set of devices (spec R62). -/
theorem setDevice_keepsHostSide {h : Handle} {d : DeviceRecord} (r : Response) (d' : DeviceRecord)
    (hd : deviceOf s h = some d) : KeepsHostSide s (respond r (setDevice h d' s)) := by
  refine ⟨rfl, rfl, rfl, rfl, rfl, rfl, rfl, fun h' => ?_⟩
  by_cases he : h' = h
  · subst he
    simp [hd]
  · simp [he]

theorem devRead_keepsHostSide {h : Handle} {r : BitVec 8} {w : Width} (hn : devRead h r w s = .next t) :
    KeepsHostSide s t := by
  obtain ⟨d, hd, ⟨-, rfl⟩ | ⟨-, rfl⟩⟩ := devRead_next hn
  · exact setDevice_keepsHostSide _ _ hd
  · exact genericRead_keepsHostSide h d r w s

theorem devWrite_keepsHostSide {h : Handle} {r : BitVec 8} {w : Width} {v : BitVec 32}
    (hn : devWrite h r w v s = .next t) : KeepsHostSide s t := by
  obtain ⟨d, hd, rfl⟩ := devWrite_next hn
  exact setDevice_keepsHostSide _ _ hd

theorem whenClaimed_keepsHostSide {dir : Dir} {w : Width} {port : BitVec 16} {o : Host.Outcome State Fault Refusal}
    (ho : o = .next t → KeepsHostSide s t) (hn : whenClaimed dir w port s o = .next t) : KeepsHostSide s t := by
  obtain ⟨-, ⟨-, hn⟩ | ⟨-, rfl⟩⟩ := whenClaimed_next hn
  · exact ho hn
  · exact unclaimed_keepsHostSide dir w port s

/-- A guest access keeps the host's side if the one state it answers when claimed does. -/
theorem whenClaimed_next_keepsHostSide {dir : Dir} {w : Width} {port : BitVec 16} {u : State} (hu : KeepsHostSide s u)
    (hn : whenClaimed dir w port s (.next u) = .next t) : KeepsHostSide s t :=
  whenClaimed_keepsHostSide (fun ho => Host.Outcome.next.inj ho ▸ hu) hn

theorem narrowAccess_next_keepsHostSide {dir : Dir} {w : Width} {u : State} (hu : KeepsHostSide s u)
    (hn : narrowAccess dir w s (.next u) = .next t) : KeepsHostSide s t := by
  obtain ⟨-, ⟨-, rfl⟩ | ⟨-, hn⟩⟩ := narrowAccess_next hn
  · exact unclaimed_keepsHostSide dir w addressPort s
  · exact whenClaimed_next_keepsHostSide hu hn

theorem dataRead_keepsHostSide {w : Width} {off : BitVec 2} (hn : dataRead w off s = .next t) : KeepsHostSide s t := by
  refine whenClaimed_keepsHostSide (fun ho => ?_) hn
  split at ho
  · exact Host.Outcome.next.inj ho ▸ respond_keepsHostSide _ s
  · exact devRead_keepsHostSide ho

theorem dataWrite_keepsHostSide {w : Width} {off : BitVec 2} {v : BitVec 32} (hn : dataWrite w off v s = .next t) :
    KeepsHostSide s t := by
  refine whenClaimed_keepsHostSide (fun ho => ?_) hn
  split at ho
  · exact Host.Outcome.next.inj ho ▸ respond_keepsHostSide _ s
  · exact devWrite_keepsHostSide ho

end KeepsHostSide

/-- Settles O59: a guest transaction writes the latch, or the record of a device that is in DS, or nothing. -/
theorem guestReachesOnlyLatchAndBytes : Obligations.GuestReachesOnlyLatchAndBytes := by
  intro s t i hg hn
  cases i with
  | caRd32 => exact whenClaimed_next_keepsHostSide (respond_keepsHostSide _ s) hn
  | caWr32 v => exact whenClaimed_next_keepsHostSide (writeLatch_keepsHostSide v s) hn
  | caRd8 | caRd16 => exact narrowAccess_next_keepsHostSide (respond_keepsHostSide _ s) hn
  | caWr8 v | caWr16 v => exact narrowAccess_next_keepsHostSide (writeLatch_keepsHostSide _ s) hn
  | cdRd8 off | cdRd16 off | cdRd32 off => exact dataRead_keepsHostSide hn
  | cdWr8 off v | cdWr16 off v | cdWr32 off v => exact dataWrite_keepsHostSide hn
  | _ => cases hg

/-! ## Foreign ports -/

/-- The bits of a format G descriptor above the port do not depend on the port (spec R71). -/
theorem extractLsb'_guestDescriptor_high (dir : Dir) (w : Width) (port : BitVec 16) {a : Nat} (n : Nat) (ha : 16 ≤ a) :
    (guestDescriptor dir w port).extractLsb' a n = (guestDescriptor dir w 0).extractLsb' a n := by
  have hzero : ∀ p : BitVec 16, (p.setWidth 24).extractLsb' a n = 0 := fun p => by
    ext j hj
    simp [p.getLsbD_of_ge (a + j) (by omega)]
  simp only [guestDescriptor, BitVec.extractLsb'_or, hzero]

/-- The low 16 bits of a format G descriptor are the port (spec R71). -/
theorem extractLsb'_guestDescriptor_port (dir : Dir) (w : Width) (port : BitVec 16) :
    (guestDescriptor dir w port).extractLsb' 0 16 = port := by
  ext j hj
  have h17 : j < 17 := by omega
  have h24 : j < 24 := by omega
  simp [guestDescriptor, hj, h17, h24]

/-- A format G descriptor is classified by the direction, the width and the port it was made of (spec R71, R80). -/
theorem classify_guestDescriptor (dir : Dir) (w : Width) (port : BitVec 16) :
    classify (guestDescriptor dir w port) = classifyGuest dir w port := by
  have hhigh := fun a n (ha : 16 ≤ a) => extractLsb'_guestDescriptor_high dir w port n ha
  have hiface : (guestDescriptor dir w port).extractLsb' 22 2 = 0 :=
    (hhigh 22 2 (by decide)).trans (by cases dir <;> cases w <;> rfl)
  have hzero : (guestDescriptor dir w port).extractLsb' 19 3 = 0 :=
    (hhigh 19 3 (by decide)).trans (by cases dir <;> cases w <;> rfl)
  have hsize : widthOfCode ((guestDescriptor dir w port).extractLsb' 17 2) = some w :=
    (congrArg _ (hhigh 17 2 (by decide))).trans (by cases dir <;> cases w <;> rfl)
  have hdir : dirOfCode ((guestDescriptor dir w port).extractLsb' 16 1) = dir :=
    (congrArg _ (hhigh 16 1 (by decide))).trans (by cases dir <;> cases w <;> rfl)
  simp only [classify, hiface, hzero, hsize, hdir, extractLsb'_guestDescriptor_port]
  rfl

/-- A port outside 0xCFC to 0xCFF is no data port (spec R78). -/
theorem dataPortOffset_eq_none {port : BitVec 16} (hp : port.toNat < 0xCFC ∨ 0xCFF < port.toNat) :
    dataPortOffset port = none := by
  refine if_neg fun he => ?_
  have hquot : port.toNat / 2 ^ 2 % 2 ^ 14 = 0xCFC / 2 ^ 2 := by
    simpa [Nat.shiftRight_eq_div_pow, firstDataPort] using congrArg BitVec.toNat he
  have hlt : port.toNat < 2 ^ 16 := port.isLt
  omega

/-- The decoder reads a foreign transaction from a format G descriptor whose port it does not decode (spec R80). -/
theorem decode_foreign {port : BitVec 16} (dir : Dir) (w : Width) (o : Operands) (haddr : port ≠ addressPort)
    (hp : port.toNat < 0xCFC ∨ 0xCFF < port.toNat) :
    decode ⟨guestDescriptor dir w port, o⟩ = .foreign dir w port := by
  rw [decode, classify_guestDescriptor, classifyGuest, if_neg haddr, dataPortOffset_eq_none hp]

/-- A step that takes a foreign transaction leaves it unclaimed (spec R81). -/
theorem step_foreign {s : State} {p : Presented} {rest : List Presented} {dir : Dir} {w : Width} {port : BitVec 16}
    (hf : s.fatal = false) (hin : s.inbox = p :: rest) (hd : decode p = .foreign dir w port) :
    step s = .next (unclaimed dir w port { s with inbox := rest }) := by
  simp [step, fetch, hf, hin, hd]

/-- Settles O8: the decoder finds no row for the port, and the step leaves the transaction unclaimed. -/
theorem stepDoesNotClaimForeignPorts : Obligations.StepDoesNotClaimForeignPorts := by
  intro s port w o rest hf haddr hp
  exact ⟨fun hin => step_foreign hf hin (decode_foreign .rd w o haddr hp),
    fun hin => step_foreign hf hin (decode_foreign .wr w o haddr hp)⟩

end Sys2Proof.Machine

/-! PROOFS of the family 30_encoding. Each descriptor format is its fields one after the other. From that follow what the
decoder makes of a format (O1, O6), the refusals (O5), that every other descriptor has one of the formats (O2), and the rows
of the opcode table (O3, O4). Then the guest before initialization (O16), the latch's fields (O18, O19), and a configuration
write read back (O25). -/

namespace Sys2Proof.Machine

open Sys2Proof

/-! ## The descriptor formats -/

@[simp] theorem dirOfCode_codeOfDir (dir : Dir) : dirOfCode (codeOfDir dir) = dir := by
  cases dir <;> decide

@[simp] theorem codeOfDir_dirOfCode (c : BitVec 1) : codeOfDir (dirOfCode c) = c := by
  revert c
  decide

@[simp] theorem widthOfCode_codeOfWidth (w : Width) : widthOfCode (codeOfWidth w) = some w := by
  cases w <;> rfl

/-- Every size code but 11 is the code of a width (spec R72). -/
theorem exists_codeOfWidth {c : BitVec 2} (hc : c ≠ 3) : ∃ w, c = codeOfWidth w := by
  have hcode : c = 0 ∨ c = 1 ∨ c = 2 := by
    revert c
    decide
  rcases hcode with rfl | rfl | rfl
  exacts [⟨.w1, rfl⟩, ⟨.w2, rfl⟩, ⟨.w4, rfl⟩]

/-- Format G is its fields one after the other, from bit 23 down (spec R71). -/
theorem guestDescriptor_eq_append (dir : Dir) (w : Width) (port : BitVec 16) :
    guestDescriptor dir w port = 0#5 ++ (codeOfWidth w ++ (codeOfDir dir ++ port)) := by
  have hor : guestDescriptor dir w port = (0#5).setWidth 24 <<< 19 |||
      ((codeOfWidth w).setWidth 24 <<< 17 ||| ((codeOfDir dir).setWidth 24 <<< 16 ||| port.setWidth 24)) := by
    rw [guestDescriptor, BitVec.or_assoc]
    exact BitVec.zero_or.symm
  simpa only [← BitVec.setWidth_append_eq_shiftLeft_setWidth_or, BitVec.setWidth_eq] using hor

/-- Format D is its fields one after the other, from bit 23 down (spec R73). -/
theorem deviceDescriptor_eq_append (dir : Dir) (w : Width) (reg : BitVec 8) :
    deviceDescriptor dir w reg = 8#5 ++ (codeOfWidth w ++ (codeOfDir dir ++ (0#8 ++ reg))) := by
  have hor : deviceDescriptor dir w reg = (8#5).setWidth 24 <<< 19 |||
      ((codeOfWidth w).setWidth 24 <<< 17 ||| ((codeOfDir dir).setWidth 24 <<< 16 |||
        ((0#8).setWidth 24 <<< 8 ||| reg.setWidth 24))) := by
    rw [deviceDescriptor, BitVec.or_assoc, BitVec.or_assoc]
    exact congrArg _ (congrArg _ (congrArg _ BitVec.zero_or.symm))
  simpa only [← BitVec.setWidth_append_eq_shiftLeft_setWidth_or, BitVec.setWidth_eq] using hor

/-- Format H is its fields one after the other, from bit 23 down (spec R74). -/
theorem hostDescriptor_eq_append (hop : BitVec 3) : hostDescriptor hop = 16#5 ++ (hop ++ 0#16) := by
  revert hop
  decide

/-- The fields of a descriptor written as bits 23:19, size, direction and the low 16 bits (spec R71, R73). -/
theorem extractLsb'_of_eq_append {d : BitVec 24} {top : BitVec 5} {size : BitVec 2} {dir : BitVec 1} {low : BitVec 16}
    (hd : d = top ++ (size ++ (dir ++ low))) :
    d.extractLsb' 22 2 = top.extractLsb' 3 2 ∧ d.extractLsb' 19 3 = top.extractLsb' 0 3 ∧
      d.extractLsb' 17 2 = size ∧ d.extractLsb' 16 1 = dir ∧
      ∀ a n, a + n ≤ 16 → d.extractLsb' a n = low.extractLsb' a n := by
  subst hd
  refine ⟨BitVec.extractLsb'_append_eq_of_le (by decide), BitVec.extractLsb'_append_eq_of_le (by decide), ?_, ?_,
    fun a n han => ?_⟩
  · rw [BitVec.extractLsb'_append_eq_of_add_le (by decide), BitVec.extractLsb'_append_eq_left]
  · rw [BitVec.extractLsb'_append_eq_of_add_le (by decide), BitVec.extractLsb'_append_eq_of_add_le (by decide),
      BitVec.extractLsb'_append_eq_left]
  · rw [BitVec.extractLsb'_append_eq_of_add_le (by omega), BitVec.extractLsb'_append_eq_of_add_le (by omega),
      BitVec.extractLsb'_append_eq_of_add_le han]

section OfFields

variable {d : BitVec 24} {w : Width}

/-- A descriptor with the fixed fields of format G is the format G descriptor of its other fields (spec R71). -/
theorem eq_guestDescriptor (hiface : d.extractLsb' 22 2 = 0) (hzero : d.extractLsb' 19 3 = 0)
    (hsize : d.extractLsb' 17 2 = codeOfWidth w) :
    d = guestDescriptor (dirOfCode (d.extractLsb' 16 1)) w (d.extractLsb' 0 16) := by
  calc d = (d.extractLsb' 22 2 ++ d.extractLsb' 19 3) ++
        (d.extractLsb' 17 2 ++ (d.extractLsb' 16 1 ++ d.extractLsb' 0 16)) := by
        iterate 4 rw [BitVec.extractLsb'_append_extractLsb'_eq_extractLsb' (by decide)]
        exact BitVec.extractLsb'_eq_self.symm
    _ = 0#5 ++ (codeOfWidth w ++ (d.extractLsb' 16 1 ++ d.extractLsb' 0 16)) := by rw [hiface, hzero, hsize]; rfl
    _ = _ := by rw [guestDescriptor_eq_append, codeOfDir_dirOfCode]

/-- A descriptor with the fixed fields of format D is the format D descriptor of its other fields (spec R73). -/
theorem eq_deviceDescriptor (hiface : d.extractLsb' 22 2 = 1) (hzero : d.extractLsb' 19 3 = 0)
    (hsize : d.extractLsb' 17 2 = codeOfWidth w) (hpad : d.extractLsb' 8 8 = 0) :
    d = deviceDescriptor (dirOfCode (d.extractLsb' 16 1)) w (d.extractLsb' 0 8) := by
  calc d = (d.extractLsb' 22 2 ++ d.extractLsb' 19 3) ++
        (d.extractLsb' 17 2 ++ (d.extractLsb' 16 1 ++ (d.extractLsb' 8 8 ++ d.extractLsb' 0 8))) := by
        iterate 5 rw [BitVec.extractLsb'_append_extractLsb'_eq_extractLsb' (by decide)]
        exact BitVec.extractLsb'_eq_self.symm
    _ = 8#5 ++ (codeOfWidth w ++ (d.extractLsb' 16 1 ++ (0#8 ++ d.extractLsb' 0 8))) := by
        rw [hiface, hzero, hsize, hpad]; rfl
    _ = _ := by rw [deviceDescriptor_eq_append, codeOfDir_dirOfCode]

/-- A descriptor with the fixed fields of format H is the format H descriptor of its operation code (spec R74). -/
theorem eq_hostDescriptor (hiface : d.extractLsb' 22 2 = 2) (hzero : d.extractLsb' 19 3 = 0)
    (hpad : d.extractLsb' 0 16 = 0) : d = hostDescriptor (d.extractLsb' 16 3) := by
  calc d = (d.extractLsb' 22 2 ++ d.extractLsb' 19 3) ++ (d.extractLsb' 16 3 ++ d.extractLsb' 0 16) := by
        iterate 3 rw [BitVec.extractLsb'_append_extractLsb'_eq_extractLsb' (by decide)]
        exact BitVec.extractLsb'_eq_self.symm
    _ = 16#5 ++ (d.extractLsb' 16 3 ++ 0#16) := by rw [hiface, hzero, hpad]; rfl
    _ = _ := (hostDescriptor_eq_append _).symm

end OfFields

/-- A data port is the fixed high bits of 0xCFC, then the offset (spec R78). -/
theorem dataPort_eq_append (off : BitVec 2) : dataPort off = firstDataPort.extractLsb' 2 14 ++ off := by
  revert off
  decide

/-- A port with the high bits of 0xCFC is the data port of its two low bits (spec R78). -/
theorem eq_dataPort {port : BitVec 16} (hp : port.extractLsb' 2 14 = firstDataPort.extractLsb' 2 14) :
    port = dataPort (port.extractLsb' 0 2) := by
  rw [dataPort_eq_append, ← hp, BitVec.extractLsb'_append_extractLsb'_eq_extractLsb' (by decide)]
  exact BitVec.extractLsb'_eq_self.symm

/-! ## What the decoder makes of each format -/

theorem classifyGuest_addressPort (dir : Dir) (w : Width) : classifyGuest dir w addressPort = .addressPort dir w :=
  if_pos rfl

theorem classifyGuest_dataPort (dir : Dir) (w : Width) (off : BitVec 2) :
    classifyGuest dir w (dataPort off) = .dataPort dir w off := by
  have hne : dataPort off ≠ addressPort := by
    revert off
    decide
  have hoff : dataPortOffset (dataPort off) = some off := by
    revert off
    decide
  rw [classifyGuest, if_neg hne, hoff]

/-- A port is the address port, a data port, or foreign (spec R80). -/
theorem classifyGuest_cases (dir : Dir) (w : Width) (port : BitVec 16) :
    port = addressPort ∨ (∃ off, port = dataPort off) ∨ classifyGuest dir w port = .foreign dir w port := by
  by_cases haddr : port = addressPort
  · exact .inl haddr
  · by_cases hdata : port.extractLsb' 2 14 = firstDataPort.extractLsb' 2 14
    · exact .inr (.inl ⟨_, eq_dataPort hdata⟩)
    · exact .inr (.inr (by rw [classifyGuest, if_neg haddr, dataPortOffset, if_neg hdata]))

/-- A format D descriptor is classified by the direction, the width and the register it was made of (spec R73, R80). -/
theorem classify_deviceDescriptor (dir : Dir) (w : Width) (reg : BitVec 8) :
    classify (deviceDescriptor dir w reg) = .device dir w reg := by
  obtain ⟨hiface, hzero, hsize, hdir, hlow⟩ := extractLsb'_of_eq_append (deviceDescriptor_eq_append dir w reg)
  have hpad : (deviceDescriptor dir w reg).extractLsb' 8 8 = 0 :=
    (hlow 8 8 (by decide)).trans BitVec.extractLsb'_append_eq_left
  have hreg : (deviceDescriptor dir w reg).extractLsb' 0 8 = reg :=
    (hlow 0 8 (by decide)).trans BitVec.extractLsb'_append_eq_right
  simp only [classify, hiface, hzero, hsize, hdir, hpad, hreg, widthOfCode_codeOfWidth, dirOfCode_codeOfDir]
  rfl

/-- A format H descriptor is classified by its operation code (spec R74, R80). -/
theorem classify_hostDescriptor (hop : BitVec 3) : classify (hostDescriptor hop) = .host hop := by
  revert hop
  decide

section DecodeFormats

variable (dir : Dir) (w : Width) (o : Operands)

theorem decode_addressPort : decode ⟨guestDescriptor dir w addressPort, o⟩ = .instr (addressPortInstr dir w o) := by
  rw [decode, classify_guestDescriptor, classifyGuest_addressPort]

theorem decode_dataPort (off : BitVec 2) :
    decode ⟨guestDescriptor dir w (dataPort off), o⟩ = .instr (dataPortInstr dir w off o) := by
  rw [decode, classify_guestDescriptor, classifyGuest_dataPort]

theorem decode_device (reg : BitVec 8) : decode ⟨deviceDescriptor dir w reg, o⟩ = .instr (deviceInstr dir w reg o) := by
  rw [decode, classify_deviceDescriptor]

theorem decode_host (hop : BitVec 3) : decode ⟨hostDescriptor hop, o⟩ = .instr (hostInstr hop o) := by
  rw [decode, classify_hostDescriptor]

end DecodeFormats

/-- Settles O1: each operation is encoded in one of the formats, and an operand narrower than its field comes back whole. -/
theorem decodeOfEncodeIsTheOperation : Obligations.DecodeOfEncodeIsTheOperation := by
  intro i hwf
  cases i with
  | caRd32 | caRd16 | caRd8 | caWr32 => exact decode_addressPort _ _ _
  | caWr8 v | caWr16 v =>
    refine (decode_addressPort _ _ _).trans ?_
    rw [addressPortInstr, BitVec.setWidth_setWidth_of_le _ (by decide), BitVec.setWidth_eq]
  | cdRd8 off | cdRd16 off | cdRd32 off | cdWr32 off => exact decode_dataPort _ _ _ off
  | cdWr8 off v | cdWr16 off v =>
    refine (decode_dataPort _ _ _ off).trans ?_
    rw [dataPortInstr, BitVec.setWidth_setWidth_of_le _ (by decide), BitVec.setWidth_eq]
  | devRd h w reg => exact decode_device _ w _ reg
  | devWr h w reg v =>
    refine (decode_device _ w _ reg).trans ?_
    rw [deviceInstr, truncTo_of_fits hwf]
  | _ => exact decode_host _ _

/-- Settles O6: the decoder evaluated at the eight descriptors. -/
theorem specWordsDecode : Obligations.SpecWordsDecode := by
  unfold Obligations.SpecWordsDecode
  decide

/-! ## Reserved encodings -/

section Reserved

variable {d : BitVec 24}

theorem classify_reservedInterface (hiface : d.extractLsb' 22 2 = 3) : classify d = .reserved .interface := by
  simp [classify, hiface]

theorem classify_reservedBits (hiface : d.extractLsb' 22 2 ≠ 3) (hzero : d.extractLsb' 19 3 ≠ 0) :
    classify d = .reserved .bits := by
  simp only [classify, if_neg hiface, if_pos hzero]

theorem classify_host_reservedBits (hiface : d.extractLsb' 22 2 = 2) (hzero : d.extractLsb' 19 3 = 0)
    (hpad : d.extractLsb' 0 16 ≠ 0) : classify d = .reserved .bits := by
  simp [classify, hiface, hzero, show ¬d.extractLsb' 0 16 = 0#16 from hpad]

theorem classify_reservedSize (hiface : d.extractLsb' 22 2 = 0 ∨ d.extractLsb' 22 2 = 1) (hzero : d.extractLsb' 19 3 = 0)
    (hsize : d.extractLsb' 17 2 = 3) : classify d = .reserved .size := by
  rcases hiface with hiface | hiface <;> simp [classify, hiface, hzero, hsize, widthOfCode]

theorem classify_device_reservedBits (hiface : d.extractLsb' 22 2 = 1) (hzero : d.extractLsb' 19 3 = 0)
    (hsize : d.extractLsb' 17 2 ≠ 3) (hpad : d.extractLsb' 8 8 ≠ 0) : classify d = .reserved .bits := by
  obtain ⟨w, hw⟩ := exists_codeOfWidth hsize
  simp [classify, hiface, hzero, hw, show ¬d.extractLsb' 8 8 = 0#8 from hpad]

/-- A descriptor that is not reserved has one of the three formats (spec R80). -/
theorem exists_format (h : ∀ r, classify d ≠ .reserved r) :
    (∃ dir w port, d = guestDescriptor dir w port) ∨ (∃ dir w reg, d = deviceDescriptor dir w reg) ∨
      ∃ hop, d = hostDescriptor hop := by
  have hne3 : d.extractLsb' 22 2 ≠ 3 := fun he => h _ (classify_reservedInterface he)
  have hzero : d.extractLsb' 19 3 = 0 := by_contra fun hne => h _ (classify_reservedBits hne3 hne)
  have hiface : d.extractLsb' 22 2 = 2 ∨ d.extractLsb' 22 2 = 0 ∨ d.extractLsb' 22 2 = 1 := by
    generalize d.extractLsb' 22 2 = c at hne3
    revert c
    decide
  rcases hiface with hhost | hsized
  · have hpad : d.extractLsb' 0 16 = 0 := by_contra fun hne => h _ (classify_host_reservedBits hhost hzero hne)
    exact .inr (.inr ⟨_, eq_hostDescriptor hhost hzero hpad⟩)
  · have hsize : d.extractLsb' 17 2 ≠ 3 := fun he => h _ (classify_reservedSize hsized hzero he)
    obtain ⟨w, hw⟩ := exists_codeOfWidth hsize
    rcases hsized with hguest | hdev
    · exact .inl ⟨_, w, _, eq_guestDescriptor hguest hzero hw⟩
    · have hpad : d.extractLsb' 8 8 = 0 := by_contra fun hne => h _ (classify_device_reservedBits hdev hzero hsize hne)
      exact .inr (.inl ⟨_, w, _, eq_deviceDescriptor hdev hzero hw hpad⟩)

end Reserved

/-- A step that takes a reserved encoding refuses it (spec R82). -/
theorem step_reserved {s : State} {p : Presented} {rest : List Presented} {r : Reserved} (hf : s.fatal = false)
    (hin : s.inbox = p :: rest) (hc : classify p.descriptor = .reserved r) : step s = .refused (refusalOf r) := by
  simp [step, fetch, hf, hin, decode, hc]

/-- Settles O5, by the class of each reserved encoding. -/
theorem reservedDescriptorsAreRefused : Obligations.ReservedDescriptorsAreRefused := fun _ _ _ hf hin =>
  ⟨fun hiface => step_reserved hf hin (classify_reservedInterface hiface),
    fun hiface hzero => step_reserved hf hin (classify_reservedBits hiface hzero),
    fun hiface hzero hpad => step_reserved hf hin (classify_host_reservedBits hiface hzero hpad),
    fun hiface hzero hsize => step_reserved hf hin (classify_reservedSize hiface hzero hsize),
    fun hiface hzero hsize hpad => step_reserved hf hin (classify_device_reservedBits hiface hzero hsize hpad)⟩

/-! ## What a decoded operation was read from -/

/-- A decoded operation was read from one of the formats, with the operands it was presented with (spec R71 to R75). -/
theorem decode_instr_cases {d : BitVec 24} {o : Operands} {i : Instr} (hd : decode ⟨d, o⟩ = .instr i) :
    (∃ dir w, d = guestDescriptor dir w addressPort ∧ i = addressPortInstr dir w o) ∨
      (∃ dir w off, d = guestDescriptor dir w (dataPort off) ∧ i = dataPortInstr dir w off o) ∨
      (∃ dir w reg, d = deviceDescriptor dir w reg ∧ i = deviceInstr dir w reg o) ∨
      ∃ hop, d = hostDescriptor hop ∧ i = hostInstr hop o := by
  have hnot : ∀ r, classify d ≠ .reserved r := fun r hr => by simp [decode, hr] at hd
  rcases exists_format hnot with ⟨dir, w, port, rfl⟩ | ⟨dir, w, reg, rfl⟩ | ⟨hop, rfl⟩
  · rcases classifyGuest_cases dir w port with rfl | ⟨off, rfl⟩ | hforeign
    · rw [decode_addressPort] at hd
      exact .inl ⟨dir, w, rfl, (Decoded.instr.inj hd).symm⟩
    · rw [decode_dataPort] at hd
      exact .inr (.inl ⟨dir, w, off, rfl, (Decoded.instr.inj hd).symm⟩)
    · simp [decode, classify_guestDescriptor, hforeign] at hd
  · rw [decode_device] at hd
    exact .inr (.inr (.inl ⟨dir, w, reg, rfl, (Decoded.instr.inj hd).symm⟩))
  · rw [decode_host] at hd
    exact .inr (.inr (.inr ⟨hop, rfl, (Decoded.instr.inj hd).symm⟩))

/-- The low 8 * w bits of a value have 8 * w bits (spec R162). -/
theorem fits_truncTo (w : Width) (v : BitVec 32) : w.fits (truncTo w v) = true := by
  refine decide_eq_true ?_
  cases w with
  | w1 | w2 => exact (BitVec.toNat_setWidth_of_le (by decide)).trans_lt (BitVec.isLt _)
  | w4 => exact v.isLt

/-- The eight operation codes (spec R74). -/
theorem hop_cases (hop : BitVec 3) :
    hop = 0 ∨ hop = 1 ∨ hop = 2 ∨ hop = 3 ∨ hop = 4 ∨ hop = 5 ∨ hop = 6 ∨ hop = 7 := by
  revert hop
  decide

/-- Settles O2, by the format the operation was read from. -/
theorem decodedOperationHasThatDescriptor : Obligations.DecodedOperationHasThatDescriptor := by
  rintro ⟨d, o⟩ i hd
  rcases decode_instr_cases hd with ⟨dir, w, rfl, rfl⟩ | ⟨dir, w, off, rfl, rfl⟩ | ⟨dir, w, reg, rfl, rfl⟩ |
    ⟨hop, rfl, rfl⟩
  · cases dir <;> cases w <;> exact ⟨rfl, rfl⟩
  · cases dir <;> cases w <;> exact ⟨rfl, rfl⟩
  · cases dir
    · exact ⟨rfl, rfl⟩
    · exact ⟨fits_truncTo w o.value, rfl⟩
  · rcases hop_cases hop with rfl | rfl | rfl | rfl | rfl | rfl | rfl | rfl <;> exact ⟨rfl, rfl⟩

/-! ## The opcode table -/

/-- The rows of the opcode table (spec R79). -/
def opcodeTable : List OpcodeRow :=
  [rowOf .caRd32, rowOf (.caWr32 0), rowOf .caRd8, rowOf .caRd16, rowOf (.caWr8 0), rowOf (.caWr16 0), rowOf (.cdRd8 0),
    rowOf (.cdRd16 0), rowOf (.cdRd32 0), rowOf (.cdWr8 0 0), rowOf (.cdWr16 0 0), rowOf (.cdWr32 0 0),
    rowOf (.devRd 0 .w1 0), rowOf (.devWr 0 .w1 0 0), rowOf .hInit, rowOf .hShutdown, rowOf (.hRegister 0 none none),
    rowOf (.hUnregister 0), rowOf .hIsInit, rowOf (.hCreate 0 0), rowOf (.hDevset 0 0 0 0), rowOf (.hDestroy 0)]

theorem rowOf_mem_opcodeTable (i : Instr) : rowOf i ∈ opcodeTable := by
  cases i <;> simp [opcodeTable, rowOf]

/-- Two rows whose patterns agree on the bits that both masks fix are one row. -/
theorem opcodeTable_disjoint :
    ∀ r ∈ opcodeTable, ∀ q ∈ opcodeTable, r.pattern &&& q.mask = q.pattern &&& r.mask → r = q := by
  decide

/-- Settles O3: a descriptor that selects two rows makes their patterns agree on the bits that both masks fix. -/
theorem opcodeRowsAreDisjoint : Obligations.OpcodeRowsAreDisjoint := by
  intro i j d hi hj
  refine opcodeTable_disjoint _ (rowOf_mem_opcodeTable i) _ (rowOf_mem_opcodeTable j) ?_
  rw [← hi, ← hj, BitVec.and_assoc, BitVec.and_assoc, BitVec.and_comm (rowOf i).mask]

/-- The descriptor of an encoded operation selects the operation's row. -/
theorem encode_selects (i : Instr) : (rowOf i).selects (encode i).descriptor := by
  open Laws.EncodesToItsRow in
  cases i
  exacts [caRd32, caWr32 _, caRd8, caRd16, caWr8 _, caWr16 _, cdRd8 _, cdRd16 _, cdRd32 _, cdWr8 _ _, cdWr16 _ _,
    cdWr32 _ _, devRd _ _ _, devWr _ _ _ _, hInit, hShutdown, hRegister _ _ _, hUnregister _, hIsInit, hCreate _ _,
    hDevset _ _ _ _, hDestroy _]

/-- Two words that agree under a mask agree on a field the mask keeps whole. -/
theorem extractLsb'_eq_of_and_eq {N : Nat} {x y m : BitVec N} (h : x &&& m = y &&& m) {a n : Nat}
    (hm : m.extractLsb' a n = BitVec.allOnes n) : x.extractLsb' a n = y.extractLsb' a n := by
  rw [← BitVec.and_allOnes (x := x.extractLsb' a n), ← hm, ← BitVec.extractLsb'_and, h, BitVec.extractLsb'_and, hm,
    BitVec.and_allOnes]

/-- A row that fixes every bit is selected by its operation's descriptor alone. -/
theorem eq_encode_of_selects {i : Instr} {d : BitVec 24} (hm : (rowOf i).mask = BitVec.allOnes 24)
    (hsel : (rowOf i).selects d) : d = (encode i).descriptor := by
  have henc := encode_selects i
  rw [OpcodeRow.selects, hm, BitVec.and_allOnes] at hsel henc
  rw [hsel, henc]

/-- The data-port rows leave only the offset open (spec R79). -/
theorem exists_offset_of_selects {d : BitVec 24} (dir : Dir) (w : Width)
    (hsel : (rowOf (dataPortInstr dir w 0 {})).selects d) : ∃ off, d = guestDescriptor dir w (dataPort off) := by
  have hrow : d &&& 0xFFFFFC = guestDescriptor dir w (dataPort 0) &&& 0xFFFFFC := by
    cases dir <;> cases w <;> exact hsel
  have hsplit : ∀ off, guestDescriptor dir w (dataPort off) =
      (guestDescriptor dir w (dataPort 0)).extractLsb' 2 22 ++ off := by
    cases dir <;> cases w <;> decide
  refine ⟨d.extractLsb' 0 2, ?_⟩
  rw [hsplit, ← extractLsb'_eq_of_and_eq hrow (by decide),
    BitVec.extractLsb'_append_extractLsb'_eq_extractLsb' (by decide)]
  exact BitVec.extractLsb'_eq_self.symm

/-- The device rows leave only the size and the register index open; a size other than 11 is a width (spec R73, R79). -/
theorem exists_width_reg_of_selects {d : BitVec 24} (dir : Dir) (hsel : (rowOf (deviceInstr dir .w1 0 {})).selects d)
    (hsize : ¬(d.extractLsb' 22 2 = 1 ∧ d.extractLsb' 17 2 = 3)) : ∃ w reg, d = deviceDescriptor dir w reg := by
  have hrow : d &&& 0xF9FF00 = deviceDescriptor dir .w1 0 &&& 0xF9FF00 := by
    cases dir <;> exact hsel
  obtain ⟨gi, gz, -, gdir, gl⟩ := extractLsb'_of_eq_append (deviceDescriptor_eq_append dir .w1 0)
  have hiface : d.extractLsb' 22 2 = 1 := (extractLsb'_eq_of_and_eq hrow (by decide)).trans gi
  have hzero : d.extractLsb' 19 3 = 0 := (extractLsb'_eq_of_and_eq hrow (by decide)).trans gz
  have hpad : d.extractLsb' 8 8 = 0 := (extractLsb'_eq_of_and_eq hrow (by decide)).trans (gl 8 8 (by decide))
  have hdir : d.extractLsb' 16 1 = codeOfDir dir := (extractLsb'_eq_of_and_eq hrow (by decide)).trans gdir
  obtain ⟨w, hw⟩ := exists_codeOfWidth fun he => hsize ⟨hiface, he⟩
  have heq := eq_deviceDescriptor hiface hzero hw hpad
  rw [hdir, dirOfCode_codeOfDir] at heq
  exact ⟨w, _, heq⟩

/-- Settles O4: a decoded operation's descriptor is its encoding's, which selects the row; and what a row leaves open is the
offset, or the size and the register, of a format. -/
theorem decoderFollowsTheOpcodeTable : Obligations.DecoderFollowsTheOpcodeTable := by
  refine ⟨fun p i hd => ?_, ?_⟩
  · rw [← (decodedOperationHasThatDescriptor p i hd).2]
    exact encode_selects i
  · rintro ⟨d, o⟩ j hsel hsize
    have hdata : ∀ dir w, (rowOf (dataPortInstr dir w 0 {})).selects d →
        ∃ i, decode ⟨d, o⟩ = .instr i ∧ rowOf i = rowOf (dataPortInstr dir w 0 {}) := fun dir w hrow => by
      obtain ⟨off, rfl⟩ := exists_offset_of_selects dir w hrow
      exact ⟨_, decode_dataPort dir w o off, by cases dir <;> cases w <;> rfl⟩
    have hdevice : ∀ dir, (rowOf (deviceInstr dir .w1 0 {})).selects d →
        ∃ i, decode ⟨d, o⟩ = .instr i ∧ rowOf i = rowOf (deviceInstr dir .w1 0 {}) := fun dir hrow => by
      obtain ⟨w, reg, rfl⟩ := exists_width_reg_of_selects dir hrow hsize
      exact ⟨_, decode_device dir w o reg, by cases dir <;> rfl⟩
    cases j with
    | caRd32 | caWr32 v | caRd8 | caRd16 | caWr8 v | caWr16 v =>
      obtain rfl := eq_encode_of_selects rfl hsel
      exact ⟨_, decode_addressPort _ _ o, rfl⟩
    | cdRd8 => exact hdata .rd .w1 hsel
    | cdRd16 => exact hdata .rd .w2 hsel
    | cdRd32 => exact hdata .rd .w4 hsel
    | cdWr8 => exact hdata .wr .w1 hsel
    | cdWr16 => exact hdata .wr .w2 hsel
    | cdWr32 => exact hdata .wr .w4 hsel
    | devRd => exact hdevice .rd hsel
    | devWr => exact hdevice .wr hsel
    | _ =>
      obtain rfl := eq_encode_of_selects rfl hsel
      exact ⟨_, decode_host o _, rfl⟩

/-! ## The guest before initialization -/

/-- Before initialization a guest operation that is not refused is an unclaimed access (spec R81, R100). -/
theorem exec_unclaimed {s : State} {i : Instr} {dir : Dir} {w : Width} {port : BitVec 16} (hf : s.fatal = false)
    (hi : s.init = false) (hnarrow : isNarrow i = true → s.params.narrowAddr ≠ .refuse)
    (ha : guestAccess i = some (dir, w, port)) : exec i s = .next (unclaimed dir w port s) := by
  have hparam : s.params.narrowAddr ≠ .refuse →
      s.params.narrowAddr = .ignore ∨ s.params.narrowAddr = .zextReplace ∧ s.init = false := fun hne => by
    cases hp : s.params.narrowAddr <;> simp_all
  cases i with
  | caRd8 | caRd16 | caWr8 v | caWr16 v =>
    cases ha
    exact narrowAccess_unclaimed _ hf (hparam (hnarrow rfl))
  | caRd32 | caWr32 v | cdRd8 off | cdRd16 off | cdRd32 off | cdWr8 off v | cdWr16 off v | cdWr32 off v =>
    cases ha
    exact whenClaimed_unclaimed _ hf hi
  | _ => cases ha

/-- Settles O16: the access is unclaimed, which for a read is a draw and for a write nothing. -/
theorem guestIsNotClaimedBeforeInit : Obligations.GuestIsNotClaimedBeforeInit := fun _ _ _ _ hf hi hnarrow =>
  ⟨fun ha => exec_unclaimed hf hi hnarrow ha, fun ha => exec_unclaimed hf hi hnarrow ha⟩

/-! ## The latch's fields -/

/-- Masking with a constant of eight bits reads the low byte alone. -/
theorem and_setWidth_byte (l : BitVec 32) (m : BitVec 8) :
    l &&& m.setWidth 32 = (l.extractLsb' 0 8 &&& m).setWidth 32 := by
  ext j hj
  by_cases hlt : j < 8
  · simp [hlt, l.getLsbD_eq_getElem hj]
  · simp [m.getLsbD_of_ge j (by omega)]

theorem toNat_extractLsb'_eq_div_mod (l : BitVec 32) (a n : Nat) :
    (l.extractLsb' a n).toNat = l.toNat / 2 ^ a % 2 ^ n := by
  rw [BitVec.extractLsb'_toNat, Nat.shiftRight_eq_div_pow]

/-- The register index is (L & 0xFC) | off, also as a 32-bit word (spec R77). -/
theorem decodeLatch_reg_setWidth (l : BitVec 32) (off : BitVec 2) :
    (decodeLatch l off).reg.setWidth 32 = (l &&& 0xFC) ||| off.setWidth 32 := by
  have hoff : (off.setWidth 8).setWidth 32 = off.setWidth 32 := by
    revert off
    decide
  have hmask : (l.extractLsb' 0 8 &&& 0xFC).setWidth 32 = l &&& 0xFC := (and_setWidth_byte l 0xFC).symm
  rw [decodeLatch, BitVec.setWidth_or, hmask, hoff]

/-- Settles O18: each field is a quotient and a remainder of the latch, and the mask keeps every field whole. -/
theorem decodeTakesTheLatchFields : Obligations.DecodeTakesTheLatchFields := by
  intro l l' off
  refine ⟨BitVec.msb_eq_decide l, toNat_extractLsb'_eq_div_mod l 16 8, toNat_extractLsb'_eq_div_mod l 11 5,
    toNat_extractLsb'_eq_div_mod l 8 3, decodeLatch_reg_setWidth l off, decodeLatch_reg_toNat l off, fun hl => ?_⟩
  have hfn : (decodeLatch l off).fn = (decodeLatch l' off).fn := extractLsb'_eq_of_and_eq hl (by decide)
  have hother : l &&& 0x80FFF8FC = l' &&& 0x80FFF8FC := by
    rw [show (0x80FFF8FC : BitVec 32) = 0x80FFFFFC &&& 0x80FFF8FC from rfl, ← BitVec.and_assoc, hl, BitVec.and_assoc]
  rw [decodeLatch_congr off hother, hfn]

/-- The composed address is its fields one after the other, from bit 31 down (spec R76). -/
theorem composeAddr_eq_append (b : BitVec 8) (x : BitVec 5) (f : BitVec 3) (r : BitVec 8) :
    composeAddr b x f r = 0x80#8 ++ (b ++ (x ++ (f ++ (r &&& 0xFC)))) := by
  have hor : composeAddr b x f r = (0x80#8).setWidth 32 <<< 24 ||| (b.setWidth 32 <<< 16 ||| (x.setWidth 32 <<< 11 |||
      (f.setWidth 32 <<< 8 ||| (r &&& 0xFC).setWidth 32))) := by
    rw [composeAddr, BitVec.or_assoc, BitVec.or_assoc, BitVec.or_assoc]
    rfl
  simpa only [← BitVec.setWidth_append_eq_shiftLeft_setWidth_or, BitVec.setWidth_eq] using hor

/-- The fields of the composed address (spec R76). -/
theorem extractLsb'_composeAddr (b : BitVec 8) (x : BitVec 5) (f : BitVec 3) (r : BitVec 8) :
    (composeAddr b x f r).getLsbD 31 = true ∧ (composeAddr b x f r).extractLsb' 16 8 = b ∧
      (composeAddr b x f r).extractLsb' 11 5 = x ∧ (composeAddr b x f r).extractLsb' 8 3 = f ∧
      (composeAddr b x f r).extractLsb' 0 8 = r &&& 0xFC := by
  rw [composeAddr_eq_append]
  refine ⟨?en, ?bus, ?slot, ?fn, ?reg⟩
  case en => exact BitVec.getLsbD_append
  case bus =>
    rw [BitVec.extractLsb'_append_eq_of_add_le (by decide)]
    exact BitVec.extractLsb'_append_eq_left
  case slot =>
    iterate 2 rw [BitVec.extractLsb'_append_eq_of_add_le (by decide)]
    exact BitVec.extractLsb'_append_eq_left
  case fn =>
    iterate 3 rw [BitVec.extractLsb'_append_eq_of_add_le (by decide)]
    exact BitVec.extractLsb'_append_eq_left
  case reg =>
    iterate 3 rw [BitVec.extractLsb'_append_eq_of_add_le (by decide)]
    exact BitVec.extractLsb'_append_eq_right

/-- Settles O19: the fields come back, and the offset puts back the two low bits of the register that R76 clears. -/
theorem composedAddressDecodesBack : Obligations.ComposedAddressDecodesBack := by
  intro b x f r
  have hreg : r &&& 0xFC &&& 0xFC ||| (r.extractLsb' 0 2).setWidth 8 = r := by
    revert r
    decide
  obtain ⟨hen, hbus, hslot, hfn, hlow⟩ := extractLsb'_composeAddr b x f r
  rw [decodeLatch, hen, hbus, hslot, hfn, hlow, hreg]

/-! ## Configuration accesses -/

theorem execAll_cons {i : Instr} {rest : List Instr} {s t : State} (hn : exec i s = .next t) :
    execAll (i :: rest) s = execAll rest t := by
  rw [execAll, hn]

/-- A read of the bytes of a value returns the value, in the width of the read (spec R52, R161). -/
theorem valueOf_cfgRead_of_lanes {n : Nat} {h : Handle} {d : DeviceRecord} {r : BitVec 8} {w : Width} {v : BitVec 32}
    (hle : r.toNat + w.bytes ≤ 256) (hbytes : ∀ k < w.bytes, readByte d.data (r.toNat + k) = lane v k) :
    valueOf w (cfgRead n h d r w) = valueOf w v := by
  have hbyte : ∀ k < w.bytes, cfgByte n h d (r.toNat + k) = lane v k := fun k hk =>
    (cfgByte_of_lt (by omega)).trans (hbytes k hk)
  cases w with
  | w1 =>
    rw [valueOf_cfgRead_w1, valueOf, BitVec.setWidth_eq_extractLsb' (by decide)]
    exact congrArg _ (hbytes 0 (by decide))
  | w2 =>
    have h0 : cfgByte n h d r.toNat = lane v 0 := hbyte 0 (by decide)
    rw [valueOf_cfgRead_w2, valueOf, BitVec.setWidth_eq_extractLsb' (by decide), hbyte 1 (by decide), h0, lane, lane,
      BitVec.extractLsb'_append_extractLsb'_eq_extractLsb' (by decide)]
  | w4 =>
    have h0 : cfgByte n h d r.toNat = lane v 0 := hbyte 0 (by decide)
    rw [valueOf_cfgRead_w4, valueOf, hbyte 1 (by decide), hbyte 2 (by decide), hbyte 3 (by decide), h0]
    iterate 4 rw [lane]
    iterate 3 rw [BitVec.extractLsb'_append_extractLsb'_eq_extractLsb' (by decide)]
    exact congrArg _ BitVec.extractLsb'_eq_self

/-- A byte whose mask is all ones takes the lane written to it (spec R162). -/
theorem readByte_cfgWrite_writable {d : DeviceRecord} {r : BitVec 8} {w : Width} (v : BitVec 32) {k : Nat}
    (hle : r.toNat + w.bytes ≤ 256) (hk : k < w.bytes) (hm : readByte d.mask (r.toNat + k) = 0xFF) :
    readByte (cfgWrite d r w v).data (r.toNat + k) = lane v k := by
  have hin : r.toNat ≤ r.toNat + k ∧ r.toNat + k < r.toNat + w.bytes ∧ r.toNat + k ≤ 255 := by omega
  have hones : (0xFF : Byte) = BitVec.allOnes 8 := rfl
  rw [cfgWrite, readByte_cfgWriteLanes, if_pos hin, hm, Nat.add_sub_cancel_left, hones, BitVec.not_allOnes,
    BitVec.and_allOnes]
  simp

/-- The data port of the register's two low bits reaches the register the address was composed from (spec R87). -/
theorem registerIndex_composeAddr (b : BitVec 8) (x : BitVec 5) (f : BitVec 3) (r : BitVec 8) :
    registerIndex (composeAddr b x f r) (r.extractLsb' 0 2) = r.toNat := by
  rw [← decodeLatch_reg_toNat, composedAddressDecodesBack]

/-- The latch a composed address replaces reaches the device in the cell the address names (spec R76, R130). -/
theorem targetIs_writeLatch_composeAddr {s : State} {h : Handle} {b : BitVec 8} {x : BitVec 5} (f : BitVec 3)
    (r : BitVec 8) (hb : b.toNat < s.params.nbus) (hx : x.toNat < s.params.nslot)
    (hcell : cellAt s b.toNat x.toNat = some h) : targetIs (writeLatch (composeAddr b x f r) s) h := by
  obtain ⟨hen, hbus, hslot, -, -⟩ := extractLsb'_composeAddr b x f r
  rw [targetIs, writeLatch_latch, hen, hbus, hslot]
  exact ⟨rfl, hb, hx, hcell⟩

theorem exec_caWr32_claimed {s : State} (v : BitVec 32) (hf : s.fatal = false) (hi : s.init = true) :
    exec (.caWr32 v) s = .next (writeLatch v s) := whenClaimed_claimed _ hf hi

section ConfigAccess

variable {s : State} {w : Width} {b : BitVec 8} {x : BitVec 5} {f : BitVec 3} {r : BitVec 8} {h : Handle} {d : DeviceRecord}
  (hf : s.fatal = false) (hi : s.init = true) (hb : b.toNat < s.params.nbus) (hx : x.toNat < s.params.nslot)
  (hcell : cellAt s b.toNat x.toNat = some h) (hd : deviceOf s h = some d) (hc : isCustom s h = false)
include hf hi hb hx hcell hd hc

/-- `CFG_WR` at a generic device latches the address and makes the masked write at the register (spec R87, R162). -/
theorem execAll_cfgWr (v : BitVec 32) (rest : List Instr) :
    execAll (cfgWrExpansion w b x f r v ++ rest) s =
      execAll rest (respond .done (setDevice h (cfgWrite d r w (truncTo w v)) (writeLatch (composeAddr b x f r) s))) := by
  refine (execAll_cons (exec_caWr32_claimed _ hf hi)).trans (execAll_cons ((exec_cdWrite w _ v _).trans ?_))
  exact (dataWrite_present w r _ (by exact hf) (by exact hi) (targetIs_writeLatch_composeAddr f r hb hx hcell)
    (registerIndex_composeAddr b x f r).symm).trans (devWrite_generic w r _ (by exact hd) (by exact hc))

/-- `CFG_RD` at a generic device latches the address and makes the generic read at the register (spec R87, R161). -/
theorem execAll_cfgRd :
    execAll (cfgRdExpansion w b x f r) s = .next (genericRead h d r w (writeLatch (composeAddr b x f r) s)) := by
  refine (execAll_cons (exec_caWr32_claimed _ hf hi)).trans (execAll_cons ((exec_cdRead w _ _).trans ?_))
  exact (dataRead_present w r (by exact hf) (by exact hi) (targetIs_writeLatch_composeAddr f r hb hx hcell)
    (registerIndex_composeAddr b x f r).symm).trans (devRead_generic w r (by exact hd) (by exact hc))

end ConfigAccess

/-- Settles O25: the write leaves the value's lanes in the record, and the read finds them there. -/
theorem configWriteThenReadReturnsTheValue : Obligations.ConfigWriteThenReadReturnsTheValue := by
  intro s w b x f r v h d hf hi hb hx hcell hd hc hle hm
  have hvalue : ∀ n, valueOf w (cfgRead n h (cfgWrite d r w (truncTo w v)) r w) = valueOf w v := fun n =>
    valueOf_cfgRead_of_lanes hle fun k hk =>
      (readByte_cfgWrite_writable _ hle hk (hm k hk)).trans (lane_truncTo v hk)
  refine ⟨_, (execAll_cfgWr hf hi hb hx hcell hd hc v _).trans
    (execAll_cfgRd hf hi hb hx hcell (deviceOf_setDevice_same _ h _) hc), ?_⟩
  rw [genericRead_eq, hvalue]
  rfl

end Sys2Proof.Machine

/-! PROOFS of the family 40_address_port. The two 32-bit operations of the address port (O12, O13), then the bring-up of one
device (O50): what H_CREATE leaves, the cell an automatic registration takes, and the vendor ID read back. -/

namespace Sys2Proof.Machine

open Sys2Proof

/-! ## The 32-bit operations of the address port -/

/-- Settles O12: the descriptor is the address port's, and the write is claimed exactly when the block is initialized. -/
theorem caWr32ReplacesTheLatch : Obligations.CaWr32ReplacesTheLatch := by
  intro s v hf
  refine ⟨?decoded, fun hi => ?claimed, fun hi => ?unclaimed⟩
  case decoded => exact decode_addressPort .wr .w4 { value := v }
  case claimed => exact exec_caWr32_claimed v hf hi
  case unclaimed => exact exec_unclaimed (i := .caWr32 v) hf hi nofun rfl

/-- Settles O13: the read is claimed exactly when the block is initialized. -/
theorem caRd32ReturnsTheLatch : Obligations.CaRd32ReturnsTheLatch := by
  intro s hf
  refine ⟨fun hi => ?claimed, fun hi => ?unclaimed⟩
  case claimed => exact whenClaimed_claimed _ hf hi
  case unclaimed => exact exec_unclaimed (i := .caRd32) hf hi nofun rfl

/-! ## Bring-up of one device -/

/-- The state H_CREATE leaves (spec R223). -/
theorem exec_hCreate_alive {s : State} (vendor device : BitVec 16) (hf : s.fatal = false) :
    exec (.hCreate vendor device) s = .next (respond (.handle (freshHandle s))
      (issueHandle (freshHandle s) (setDevice (freshHandle s) (constructed vendor device) s))) :=
  whenAlive_alive hf _

/-- The first two bytes of a new record are its vendor ID (spec R167, R132). -/
theorem valueOf_cfgRead_constructed_vendor (n : Nat) (h : Handle) (vendor device : BitVec 16) :
    valueOf .w2 (cfgRead n h (constructed vendor device) 0 .w2) = .b16 vendor := by
  have hlow : readByte (constructed vendor device).data 0 = vendor.extractLsb' 0 8 := by simp [constructed]
  have hhigh : readByte (constructed vendor device).data 1 = vendor.extractLsb' 8 8 := by simp [constructed]
  calc valueOf .w2 (cfgRead n h (constructed vendor device) 0 .w2)
      = .b16 (vendor.extractLsb' 8 8 ++ vendor.extractLsb' 0 8) := by
        rw [valueOf_cfgRead_w2, cfgByte_of_lt (by decide), cfgByte_of_lt (by decide)]
        exact congrArg₂ (fun high low : Byte => Value.b16 (high ++ low)) hhigh hlow
    _ = .b16 vendor := by
        rw [BitVec.extractLsb'_append_extractLsb'_eq_extractLsb' (by decide)]
        exact congrArg _ BitVec.extractLsb'_eq_self

section Registration

variable {s : State} {h : Handle}

/-- The search of PlaceAuto takes the cell it begins at, where that cell is empty (spec R192). -/
theorem autoCell_of_empty {rb rs : Option Nat} (hc : cellAt s (rb.getD 0) (rs.getD 0) = none) :
    autoCell s rb rs = some (rb.getD 0, rs.getD 0) := by
  have hpos : 0 < s.params.nbus * s.params.nslot := Nat.mul_pos (Params.nbus_pos _) (Params.nslot_pos _)
  obtain ⟨fuel, hfuel⟩ := Nat.exists_eq_succ_of_ne_zero hpos.ne'
  rw [autoCell, hfuel, autoSearch, if_pos hc]

/-- Registering a host-owned device anywhere is PlaceAuto on the initialized block (spec R191, R226). -/
theorem exec_hRegister_auto (hf : s.fatal = false) (hnull : h ≠ nullHandle) (hd : deviceOf s h ≠ none)
    (hreg : registered s h = false) :
    exec (.hRegister h none none) s = .next (placeAuto h none none (doInit s)) := by
  refine (whenAlive_alive hf _).trans ?_
  rw [if_neg hnull, if_neg hd, hreg]
  rfl

/-- While cell (0, 0) is empty, an automatic registration of a host-owned device takes it (spec R191, R192, R194). -/
theorem exec_hRegister_firstCell (hf : s.fatal = false) (hnull : h ≠ nullHandle) (hd : deviceOf s h ≠ none)
    (hreg : registered s h = false) (hc : cellAt s 0 0 = none) :
    exec (.hRegister h none none) s = .next (respond (.registered 0) (fillCell 0 0 h (doInit s))) := by
  have hcell : autoCell (doInit s) none none = some (0, 0) := autoCell_of_empty ((cellAt_doInit s 0 0).trans hc)
  rw [exec_hRegister_auto hf hnull hd hreg, placeAuto, hcell]
  rfl

end Registration

/-- Registering a new generic device at the empty cell (0, 0), addressing that cell and reading two bytes gives the device's
vendor ID (spec R192, R101, R132, R167). -/
theorem execAll_register_readVendor {s : State} {h : Handle} {vendor : BitVec 16} (device : BitVec 16)
    (hf : s.fatal = false) (hnull : h ≠ nullHandle) (hd : deviceOf s h = some (constructed vendor device))
    (hreg : registered s h = false) (hc : cellAt s 0 0 = none) (hcustom : isCustom s h = false) :
    ∃ u, execAll [.hRegister h none none, .caWr32 0x80000000, .cdRd16 0] s = .next u ∧
      u.outbox = .data (.b16 vendor) :: .done :: .registered 0 :: s.outbox := by
  have hregister := exec_hRegister_firstCell hf hnull (by simp [hd]) hreg hc
  have hexpansion : cfgRdExpansion .w2 0 0 0 0 = [.caWr32 0x80000000, .cdRd16 0] := rfl
  have hread := execAll_cfgRd (s := respond (.registered 0) (fillCell 0 0 h (doInit s))) (w := .w2) (b := 0) (x := 0)
    (f := 0) (r := 0) (by simpa using hf) (by simp) (Params.nbus_pos _) (Params.nslot_pos _) (cellAt_fillCell_same _ h 0 0)
    (by simpa using hd) (by simpa [isCustom] using hcustom)
  refine ⟨_, (execAll_cons hregister).trans (hexpansion ▸ hread), ?_⟩
  rw [genericRead_eq, valueOf_cfgRead_constructed_vendor]
  simp

/-- Settles O50: at power-on no cell is taken, so the new device is registered at bus 0, slot 0. -/
theorem bringUpFindsTheDevice : Obligations.BringUpFindsTheDevice := by
  intro p vendor device t h hn hout hcustom
  rw [exec_hCreate_alive vendor device rfl] at hn
  cases hn
  obtain rfl : freshHandle (State.powerOn p) = h := by simpa [State.powerOn] using hout
  rw [← hout]
  exact execAll_register_readVendor device rfl (freshHandle_ne_null _) (by simp) rfl rfl hcustom

end Sys2Proof.Machine

/-! PROOFS of the family 41_data_port. What a claimed access of an absent target does, at every width (O20, O21), and after
an unregistration at the cell it has emptied (O43). -/

namespace Sys2Proof.Machine

open Sys2Proof

/-! ## Absent targets -/

section Absent

variable {s : State} (w : Width) (off : BitVec 2) (hf : s.fatal = false) (hi : s.init = true) (ha : targetAbsent s)
include hf hi ha

/-- A claimed data-port read of an absent target answers the sentinel and changes nothing (spec R138). -/
theorem dataRead_absent : dataRead w off s = .next (respond (.data (ones w)) s) := by
  rw [dataRead, whenClaimed_claimed _ hf hi, route_absent off ha]

/-- A claimed data-port write to an absent target answers and changes nothing (spec R134 to R136). -/
theorem dataWrite_absent (v : BitVec 32) : dataWrite w off v s = .next (respond .done s) := by
  rw [dataWrite, whenClaimed_claimed _ hf hi, route_absent off ha]

end Absent

/-- Settles O20: each row is the data-port read of its width. -/
theorem absentTargetReadsAllOnes : Obligations.AbsentTargetReadsAllOnes := fun _ off hf hi ha =>
  ⟨dataRead_absent .w1 off hf hi ha, dataRead_absent .w2 off hf hi ha, dataRead_absent .w4 off hf hi ha⟩

/-- Settles O21: each row is the data-port write of its width. -/
theorem absentTargetWritesNothing : Obligations.AbsentTargetWritesNothing := fun _ off _ _ _ hf hi ha =>
  ⟨dataWrite_absent .w1 off hf hi ha _, dataWrite_absent .w2 off hf hi ha _, dataWrite_absent .w4 off hf hi ha _⟩

/-! ## The cell an unregistration has emptied -/

/-- Unregistering the device in a cell empties that cell and answers true (spec R196). -/
theorem State.Inv.exec_hUnregister_eq {s : State} {h : Handle} {b x : Nat} (hs : s.Inv) (hf : s.fatal = false)
    (hcell : cellAt s b x = some h) :
    exec (.hUnregister h) s = .next (respond (.bool true) (clearCell (cellKey b x) s)) :=
  execHUnregister_found hf (hs.cellOf_eq (mem_of_mapGet hcell))

/-- A latch that addresses an empty cell has an absent target (spec R251). -/
theorem targetAbsent_withLatch_of_empty {s : State} {l : BitVec 32} {b x : Nat} (hc : cellAt s b x = none)
    (hb : (l.extractLsb' 16 8).toNat = b) (hx : (l.extractLsb' 11 5).toNat = x) : targetAbsent { s with latch := l } := by
  subst hb hx
  exact .inr (.inr (.inr hc))

/-- Settles O43: the unregistration empties the cell (b, x), so every latch that addresses it has an absent target. -/
theorem unregisteredCellReadsAbsent : Obligations.UnregisteredCellReadsAbsent := by
  intro s t h b x l w off v hs hi _ _ hcell hn hb hx
  have hf : s.fatal = false := exec_next_alive hn
  rw [hs.exec_hUnregister_eq hf hcell] at hn
  cases hn
  have hempty : cellAt (respond (.bool true) (clearCell (cellKey b x) s)) b x = none := cellAt_clearCell_same
  have habsent := targetAbsent_withLatch_of_empty hempty hb hx
  rw [exec_cdRead, exec_cdWrite]
  exact ⟨dataRead_absent w off hf hi habsent, dataWrite_absent w off (by exact hf) (by exact hi) habsent _⟩

end Sys2Proof.Machine

/-! PROOFS of the family 42_config_space. The two device-port operations of a generic device (O26, O27, O29) and their
refusal (O28), then how the host makes a record (O47) and sets a byte of it (O48). -/

namespace Sys2Proof.Machine

open Sys2Proof

/-! ## The device port -/

section DevicePort

variable {s : State} {h : Handle} {d : DeviceRecord} (hf : s.fatal = false) (hd : deviceOf s h = some d)
  (hc : isCustom s h = false) (reg : BitVec 8)
include hf hd hc

/-- DEV_RD of a generic device is the generic read (spec R161). -/
theorem exec_devRd_generic (w : Width) : exec (.devRd h w reg) s = .next (genericRead h d reg w s) :=
  (whenAlive_alive hf _).trans (devRead_generic w reg hd hc)

/-- DEV_WR of a generic device is the masked write of the value's low 8 * w bits (spec R162). -/
theorem exec_devWr_generic (w : Width) (v : BitVec 32) :
    exec (.devWr h w reg v) s = .next (respond .done (setDevice h (cfgWrite d reg w (truncTo w v)) s)) :=
  (whenAlive_alive hf _).trans (devWrite_generic w reg _ hd hc)

/-- A one-byte DEV_RD of a generic device returns the stored byte, at every index (spec R161, R166). -/
theorem exec_devRd_byte :
    exec (.devRd h .w1 reg) s = .next { s with outbox := .data (.b8 (readByte d.data reg.toNat)) :: s.outbox } :=
  (exec_devRd_inside (w := .w1) hf hd hc reg.isLt).trans (by rw [valueOf_cfgRead_w1])

end DevicePort

/-- Settles O26: the value of the generic read is the bytes it finds, appended. -/
theorem devRdReturnsStoredBytes : Obligations.DevRdReturnsStoredBytes := by
  intro s h d reg hf hd hc
  have hread := fun w => (exec_devRd_generic hf hd hc reg w).trans (congrArg _ (genericRead_eq h d reg w s))
  refine ⟨?w1, ?w2, ?w4⟩
  case w1 => exact exec_devRd_byte hf hd hc reg
  case w2 => rw [hread, valueOf_cfgRead_w2, Width.bytes]
  case w4 => rw [hread, valueOf_cfgRead_w4, Width.bytes]

/-- A masked write of w bytes reads only the low 8 * w bits of its value (spec R162). -/
theorem maskedByte_truncTo (d : DeviceRecord) (r : Nat) (w : Width) (v : BitVec 32) (i : Nat) :
    maskedByte d r w.bytes (truncTo w v) i = maskedByte d r w.bytes v i := by
  unfold maskedByte
  split
  · next hin => rw [← lane_eq_setWidth, ← lane_eq_setWidth, lane_truncTo v (by omega)]
  · rfl

/-- Below 256 DEV_WR of a generic device leaves byte i as `maskedByte` gives it for the value it was given (spec R162). -/
theorem readByte_cfgWrite_truncTo (d : DeviceRecord) (reg : BitVec 8) (w : Width) (v : BitVec 32) {i : Nat}
    (hi : i ≤ 255) : readByte (cfgWrite d reg w (truncTo w v)).data i = maskedByte d reg.toNat w.bytes v i :=
  (readByte_cfgWrite d reg w _ hi).trans (maskedByte_truncTo d _ w v i)

/-- Settles O27, by the masked write of the value's low 8 * w bits. -/
theorem devWrObeysTheMask : Obligations.DevWrObeysTheMask := fun s h d w reg v hf hd hc =>
  ⟨_, _, exec_devWr_generic hf hd hc reg w v, onlyDevice_respond_setDevice _ h _ s, cfgWriteLanes_mask _ _ _ _,
    fun _ hi => readByte_cfgWrite_truncTo d reg w v hi⟩

/-- The byte a one-byte write is addressed to takes the written value under its mask (spec R163). -/
theorem maskedByte_one_same (d : DeviceRecord) (r : Nat) (v : Byte) :
    maskedByte d r 1 (v.setWidth 32) r =
      (readByte d.data r &&& ~~~ readByte d.mask r) ||| (v &&& readByte d.mask r) := by
  have hlow : (v.setWidth 32).setWidth 8 = v :=
    (BitVec.setWidth_setWidth_of_le v (by decide)).trans (BitVec.setWidth_eq v)
  simp only [maskedByte, le_refl, Nat.lt_succ_self, and_self, if_true, Nat.sub_self, Nat.mul_zero,
    BitVec.ushiftRight_zero, hlow]

/-- Settles O29: the read finds at r the byte that the masked write (O27) left there. -/
theorem singleByteWriteLaw : Obligations.SingleByteWriteLaw := by
  intro s h d r v hf hd hc
  obtain ⟨t, d', hn, ⟨ht, hd', -⟩, -, hbytes⟩ := devWrObeysTheMask s h d .w1 r (v.setWidth 32) hf hd hc
  have hbyte := hbytes r.toNat (Nat.le_of_lt_succ r.isLt)
  rw [Width.bytes, maskedByte_one_same] at hbyte
  refine ⟨t, hn, ?_⟩
  rw [exec_devRd_byte (by rw [ht]; exact hf) hd' (by rw [ht]; exact hc) r, hbyte]

theorem devRead_noDevice {s : State} {h : Handle} (r : BitVec 8) (w : Width) (hd : deviceOf s h = none) :
    devRead h r w s = .refused .noDevice := by rw [devRead, hd]

theorem devWrite_noDevice {s : State} {h : Handle} (r : BitVec 8) (w : Width) (v : BitVec 32)
    (hd : deviceOf s h = none) : devWrite h r w v s = .refused .noDevice := by rw [devWrite, hd]

/-- Settles O28: both calls first look the handle up in DS. -/
theorem directCallsNeedADevice : Obligations.DirectCallsNeedADevice := fun _ _ w reg v hf hd =>
  ⟨(whenAlive_alive hf _).trans (devRead_noDevice reg w hd),
    (whenAlive_alive hf _).trans (devWrite_noDevice reg w (truncTo w v) hd)⟩

/-! ## The construction defaults -/

/-- A 16-bit ID is its high byte appended to its low byte (spec R52). -/
theorem append_idBytes (id : BitVec 16) : id.extractLsb' 8 8 ++ id.extractLsb' 0 8 = id :=
  (BitVec.extractLsb'_append_extractLsb'_eq_extractLsb' (by decide)).trans BitVec.extractLsb'_eq_self

section Constructed

variable (vendor device : BitVec 16)

theorem constructed_vendor :
    readByte (constructed vendor device).data 1 ++ readByte (constructed vendor device).data 0 = vendor := by
  simp [constructed, append_idBytes]

theorem constructed_device :
    readByte (constructed vendor device).data 3 ++ readByte (constructed vendor device).data 2 = device := by
  simp [constructed, append_idBytes]

/-- Past the two IDs a new record's bytes are 0 (spec R167). -/
theorem readByte_constructed_data_of_le {i : Nat} (hi : 4 ≤ i) : readByte (constructed vendor device).data i = 0 := by
  simp (disch := omega) only [constructed, readByte_writeByte_other, readByte_nil]

/-- A new record is writable in the Command register alone (spec R167). -/
theorem readByte_constructed_mask (i : Nat) :
    readByte (constructed vendor device).mask i = if i = 4 then 0x03 else if i = 5 then 0x04 else 0 := by
  by_cases h4 : i = 4
  · subst h4; simp [constructed]
  · by_cases h5 : i = 5 <;> simp [constructed, h4, h5]

end Constructed

/-! ## The host's calls -/

/-- H_CREATE returns the allocator's proposal where that is fresh (spec R223, U12). -/
theorem freshHandle_eq_supplied {s : State} {c : Handle} {rest : List Handle} (hs : s.handleSupply = c :: rest)
    (hnull : c ≠ nullHandle) (hfresh : c ∉ s.issued) : freshHandle s = c := by
  have hprop : proposedHandle s = c := by rw [proposedHandle, hs]
  rw [freshHandle, hprop, if_pos ⟨hnull, hfresh⟩]

/-- A handle that was never returned names no device (spec R223, R27). -/
theorem State.Inv.deviceOf_eq_none {s : State} (hs : s.Inv) {h : Handle} (hfresh : h ∉ s.issued) : deviceOf s h = none :=
  mapGet_eq_none.mpr fun e he heq => hfresh (heq ▸ hs.devicesIssued e he)

/-- Settles O47: the handle is the fresh one, and the record holds the construction defaults. -/
theorem hCreateAddsAFreshDevice : Obligations.HCreateAddsAFreshDevice := by
  intro s vendor device hf
  refine ⟨_, freshHandle s, constructed vendor device, exec_hCreate_alive vendor device hf, freshHandle_ne_null s,
    freshHandle_not_issued s, rfl, fun hs => hs.deviceOf_eq_none (freshHandle_not_issued s), ?added, ?others,
    constructed_vendor _ _, constructed_device _ _, fun _ hi => readByte_constructed_data_of_le _ _ hi,
    readByte_constructed_mask _ _ 4, readByte_constructed_mask _ _ 5, ?masked, fun _ _ => freshHandle_eq_supplied⟩
  case added => simp
  case others =>
    intro h' hne
    simp [hne]
  case masked =>
    intro i h4 h5
    rw [readByte_constructed_mask, if_neg h4, if_neg h5]

section HDevset

variable {s : State} {h : Handle} (i data mask : BitVec 8) (hf : s.fatal = false)
include hf

theorem exec_hDevset_found {d : DeviceRecord} (hd : deviceOf s h = some d) :
    exec (.hDevset h i data mask) s = .next (respond .done (setDevice h (devset d i data mask) s)) := by
  refine (whenAlive_alive hf _).trans ?_
  rw [hd]

theorem exec_hDevset_unknown (hd : deviceOf s h = none) :
    exec (.hDevset h i data mask) s = .refused .unknownDevice := by
  refine (whenAlive_alive hf _).trans ?_
  rw [hd]

end HDevset

/-- Settles O48: the record it sets differs in one data byte and its mask byte. -/
theorem hDevsetSetsOneByteUnmasked : Obligations.HDevsetSetsOneByteUnmasked := by
  intro s h i data mask hf
  refine ⟨fun d hd => ?found, exec_hDevset_unknown i data mask hf⟩
  case found =>
    exact ⟨_, _, exec_hDevset_found i data mask hf hd, onlyDevice_respond_setDevice _ h _ s,
      readByte_writeByte_same _ _ _, readByte_writeByte_same _ _ _,
      fun j hne => ⟨readByte_writeByte_other _ _ _ _ hne, readByte_writeByte_other _ _ _ _ hne⟩⟩

end Sys2Proof.Machine

/-! PROOFS of the family 43_registry. The outcomes of H_REGISTER by the tests of R258 (O34 to O36), at an explicit cell (O37,
O38) and by the search of PlaceAuto (O39), where a registered device is then found (O40), and H_UNREGISTER of a handle in no
cell (O42). -/

namespace Sys2Proof.Machine

open Sys2Proof

/-! ## The tests of H_REGISTER -/

/-- An explicit index is beyond the table exactly when it is not below the table's size (spec R191). -/
theorem beyondTable_eq_true {size : Nat} {o : Option Nat} :
    beyondTable size o = true ↔ ∃ n, o = some n ∧ size ≤ n := by
  cases o <;> simp [beyondTable]

/-- A registration that fails initializes the block, returns its code and changes nothing else (spec R252, D13). -/
theorem registerFails_doInit (c : FailCode) (s : State) :
    registerFails c (doInit s) = { s with init := true, outbox := .failed c :: s.outbox } := by
  rw [registerFails, doInit_eq, respond]

section Tests

variable {s : State} {h : Handle} (rb rs : Option Nat) (hf : s.fatal = false)
include hf

theorem exec_hRegister_null : exec (.hRegister nullHandle rb rs) s = .next (registerFails .invalidArgument (doInit s)) :=
  (whenAlive_alive hf _).trans (if_pos rfl)

theorem exec_hRegister_unknown (hnull : h ≠ nullHandle) (hd : deviceOf s h = none) :
    exec (.hRegister h rb rs) s = .refused .unknownDevice := by
  refine (whenAlive_alive hf _).trans ?_
  rw [if_neg hnull, if_pos hd]

theorem exec_hRegister_registered (hnull : h ≠ nullHandle) (hd : deviceOf s h ≠ none) (hreg : registered s h = true) :
    exec (.hRegister h rb rs) s = .refused .alreadyRegistered := by
  refine (whenAlive_alive hf _).trans ?_
  rw [if_neg hnull, if_neg hd, if_pos hreg]

/-- A host-owned device is placed, unless an explicit index is outside the table (spec R191). -/
theorem exec_hRegister_hostOwned (hnull : h ≠ nullHandle) (hd : deviceOf s h ≠ none) (hreg : registered s h = false) :
    exec (.hRegister h rb rs) s =
      .next (if beyondTable s.params.nbus rb = true ∨ beyondTable s.params.nslot rs = true
        then registerFails .outOfBounds (doInit s) else place h rb rs s (doInit s)) := by
  refine (whenAlive_alive hf _).trans ?_
  rw [if_neg hnull, if_neg hd, hreg, if_neg Bool.false_ne_true]
  by_cases hb : beyondTable s.params.nbus rb = true
  · rw [if_pos hb, if_pos (.inl hb)]
  · by_cases hx : beyondTable s.params.nslot rs = true
    · rw [if_neg hb, if_pos hx, if_pos (.inr hx)]
    · rw [if_neg hb, if_neg hx, if_neg (not_or.mpr ⟨hb, hx⟩)]

/-- A host-owned device is placed where every explicit index is inside the table (spec R191). -/
theorem exec_hRegister_inside (hnull : h ≠ nullHandle) (hd : deviceOf s h ≠ none) (hreg : registered s h = false)
    (hrb : ∀ b0, rb = some b0 → b0 < s.params.nbus) (hrs : ∀ x0, rs = some x0 → x0 < s.params.nslot) :
    exec (.hRegister h rb rs) s = .next (place h rb rs s (doInit s)) := by
  rw [exec_hRegister_hostOwned rb rs hf hnull hd hreg, beyondTable_eq_false.mpr hrb, beyondTable_eq_false.mpr hrs,
    if_neg (by decide)]

/-- At an explicit cell of the table a host-owned device is placed by PlaceExplicit (spec R191, R193). -/
theorem exec_hRegister_explicit {b x : Nat} (hnull : h ≠ nullHandle) (hd : deviceOf s h ≠ none)
    (hreg : registered s h = false) (hb : b < s.params.nbus) (hx : x < s.params.nslot) :
    exec (.hRegister h (some b) (some x)) s = .next (placeExplicit h b x s (doInit s)) :=
  exec_hRegister_inside _ _ hf hnull hd hreg (by rintro _ ⟨⟩; exact hb) (by rintro _ ⟨⟩; exact hx)

end Tests

/-- Settles O34: the test for `null` is the first. -/
theorem registerNullIsInvalid : Obligations.RegisterNullIsInvalid := by
  intro s rb rs hf
  rw [exec_hRegister_null rb rs hf, registerFails_doInit]

/-- Settles O35, by the two refusals in the order of their tests. -/
theorem registerRefusesUnknownAndRegistered : Obligations.RegisterRefusesUnknownAndRegistered :=
  fun _ _ rb rs hf hnull => ⟨exec_hRegister_unknown rb rs hf hnull, exec_hRegister_registered rb rs hf hnull⟩

/-- Settles O36: an index outside the table is what the bounds tests find. -/
theorem registerOutsideTheTableFails : Obligations.RegisterOutsideTheTableFails := by
  intro s h rb rs hf hnull hd hreg hout
  rw [← beyondTable_eq_true, ← beyondTable_eq_true] at hout
  rw [exec_hRegister_hostOwned rb rs hf hnull hd hreg, if_pos hout, registerFails_doInit]

/-! ## An explicit cell -/

/-- Placing a device initializes the block, fills that cell alone and returns its slot (spec R194, R226). -/
theorem onlyCellFilled_placeAt {s : State} {b x : Nat} (h : Handle) (hx : x < s.params.nslot) :
    OnlyCellFilled s (placeAt h b x (doInit s)) b x h (.registered x) := by
  have hle := Params.nslot_le s.params
  refine ⟨?state, cellAt_fillCell_same _ h b x, fun b' x' hx' hne => ?other⟩
  case state => simp [placeAt, respond, fillCell, doInit_eq]
  case other => exact (cellAt_fillCell_other _ h (by omega) (by omega) hne).trans (cellAt_doInit s b' x')

/-- Settles O37: PlaceExplicit finds the cell empty. -/
theorem registerAtAFreeCellSucceeds : Obligations.RegisterAtAFreeCellSucceeds := by
  intro s h b x hf hnull hd hreg hb hx hc
  refine ⟨_, ?_, onlyCellFilled_placeAt h hx⟩
  rw [exec_hRegister_explicit hf hnull hd hreg hb hx, placeExplicit, cellAt_doInit, if_pos hc]

/-- Settles O38: PlaceExplicit finds the cell occupied, and the state the fatal condition keeps is the one before the
deferred initialization. -/
theorem registerCollisionIsFatal : Obligations.RegisterCollisionIsFatal := by
  intro s h b x hf hnull hd hreg hb hx hc
  rw [exec_hRegister_explicit hf hnull hd hreg hb hx, placeExplicit, cellAt_doInit, if_neg hc, raiseFatal]

/-! ## The search of PlaceAuto -/

/-- The cells of the table that a registration with bus `rb` and slot `rs` may take (spec R192). -/
def AllowedCell (s : State) (rb rs : Option Nat) (b x : Nat) : Prop :=
  b < s.params.nbus ∧ x < s.params.nslot ∧ (∀ b0, rb = some b0 → b = b0) ∧ ∀ x0, rs = some x0 → x = x0

/-- Every allowed cell before (b, x), in row-major order, is occupied. -/
def OccupiedBefore (s : State) (rb rs : Option Nat) (b x : Nat) : Prop :=
  ∀ b' x', AllowedCell s rb rs b' x' → (b' < b ∨ b' = b ∧ x' < x) → cellAt s b' x' ≠ none

/-- `o` is the first allowed cell that is empty, in row-major order, or none where they are all occupied (spec R192, R198). -/
def IsFirstEmpty (s : State) (rb rs : Option Nat) : Option (Nat × Nat) → Prop
  | some (b, x) => AllowedCell s rb rs b x ∧ cellAt s b x = none ∧ OccupiedBefore s rb rs b x
  | none => ∀ b x, AllowedCell s rb rs b x → cellAt s b x ≠ none

section Search

variable {s : State} {rb rs : Option Nat} {b x : Nat}

/-- There is at most one first empty cell. -/
theorem IsFirstEmpty.unique {o o' : Option (Nat × Nat)} (ho : IsFirstEmpty s rb rs o) (ho' : IsFirstEmpty s rb rs o') :
    o = o' := by
  rcases o with - | ⟨b, x⟩ <;> rcases o' with - | ⟨b', x'⟩
  · rfl
  · obtain ⟨hallowed, hempty, -⟩ := ho'
    exact absurd hempty (ho _ _ hallowed)
  · obtain ⟨hallowed, hempty, -⟩ := ho
    exact absurd hempty (ho' _ _ hallowed)
  · obtain ⟨hallowed, hempty, hbefore⟩ := ho
    obtain ⟨hallowed', hempty', hbefore'⟩ := ho'
    have hnot : ¬ (b' < b ∨ b' = b ∧ x' < x) := fun hlt => hbefore _ _ hallowed' hlt hempty'
    have hnot' : ¬ (b < b' ∨ b = b' ∧ x < x') := fun hlt => hbefore' _ _ hallowed hlt hempty
    obtain ⟨rfl, rfl⟩ : b = b' ∧ x = x' := by omega
    rfl

/-! ### The order of the search -/

/-- An allowed cell is not before the cell where the search begins, in neither coordinate (spec R192, C1). -/
theorem AllowedCell.start_le (ha : AllowedCell s rb rs b x) : rb.getD 0 ≤ b ∧ rs.getD 0 ≤ x := by
  obtain ⟨-, -, hbus, hslot⟩ := ha
  constructor
  · cases rb with
    | none => exact Nat.zero_le b
    | some b0 => exact (hbus b0 rfl).ge
  · cases rs with
    | none => exact Nat.zero_le x
    | some x0 => exact (hslot x0 rfl).ge

/-- The allowed cells of a bus end with its last slot, or with the slot given (spec R192). -/
theorem AllowedCell.slot_le (ha : AllowedCell s rb rs b x) (hlast : rs.isSome ∨ x = s.params.nslot - 1) {b' x' : Nat}
    (ha' : AllowedCell s rb rs b' x') : x' ≤ x := by
  obtain ⟨-, -, -, hslot⟩ := ha
  obtain ⟨-, hx', -, hslot'⟩ := ha'
  rcases hlast with hgiven | hlast
  · obtain ⟨x0, hx0⟩ := Option.isSome_iff_exists.mp hgiven
    exact ((hslot' x0 hx0).trans (hslot x0 hx0).symm).le
  · omega

/-- The allowed cells of the table end with its last bus, or with the bus given (spec R192). -/
theorem AllowedCell.bus_le (ha : AllowedCell s rb rs b x) (hlast : b + 1 ≥ s.params.nbus ∨ rb.isSome) {b' x' : Nat}
    (ha' : AllowedCell s rb rs b' x') : b' ≤ b := by
  obtain ⟨-, -, hbus, -⟩ := ha
  obtain ⟨hb', -, hbus', -⟩ := ha'
  rcases hlast with hlast | hgiven
  · omega
  · obtain ⟨b0, hb0⟩ := Option.isSome_iff_exists.mp hgiven
    exact ((hbus' b0 hb0).trans (hbus b0 hb0).symm).le

/-- The search begins at an allowed cell. -/
theorem allowedCell_start (hrb : ∀ b0, rb = some b0 → b0 < s.params.nbus)
    (hrs : ∀ x0, rs = some x0 → x0 < s.params.nslot) : AllowedCell s rb rs (rb.getD 0) (rs.getD 0) := by
  refine ⟨?_, ?_, by rintro b0 rfl; rfl, by rintro x0 rfl; rfl⟩
  · cases rb with
    | none => exact Params.nbus_pos _
    | some b0 => exact hrb b0 rfl
  · cases rs with
    | none => exact Params.nslot_pos _
    | some x0 => exact hrs x0 rfl

/-- The search goes on to an allowed cell: the next slot of the bus. -/
theorem AllowedCell.nextSlot (ha : AllowedCell s rb rs b x) (hmore : ¬(rs.isSome ∨ x = s.params.nslot - 1)) :
    AllowedCell s rb rs b (x + 1) := by
  obtain ⟨hb, hx, hbus, -⟩ := ha
  obtain ⟨hfree, hne⟩ := not_or.mp hmore
  refine ⟨hb, by omega, hbus, fun x0 hx0 => absurd ?_ hfree⟩
  rw [hx0, Option.isSome_some]

/-- The search goes on to an allowed cell: where it begins the next bus. -/
theorem AllowedCell.nextBus (ha : AllowedCell s rb rs b x) (hmore : ¬(b + 1 ≥ s.params.nbus ∨ rb.isSome)) :
    AllowedCell s rb rs (b + 1) (rs.getD 0) := by
  obtain ⟨-, hx, -, hslot⟩ := ha
  obtain ⟨hb, hfree⟩ := not_or.mp hmore
  refine ⟨not_le.mp hb, ?_, fun b0 hb0 => absurd ?_ hfree, by rintro x0 rfl; rfl⟩
  · cases rs with
    | none => exact Params.nslot_pos _
    | some x0 => exact hslot x0 rfl ▸ hx
  · rw [hb0, Option.isSome_some]

section Occupied

variable (hbefore : OccupiedBefore s rb rs b x) (hc : cellAt s b x ≠ none)
include hbefore hc

/-- At an occupied cell every allowed cell up to it is occupied. -/
theorem OccupiedBefore.upTo {b' x' : Nat} (ha' : AllowedCell s rb rs b' x') (hle : b' < b ∨ b' = b ∧ x' ≤ x) :
    cellAt s b' x' ≠ none := by
  by_cases heq : b' = b ∧ x' = x
  · obtain ⟨rfl, rfl⟩ := heq
    exact hc
  · exact hbefore b' x' ha' (by omega)

theorem OccupiedBefore.nextSlot : OccupiedBefore s rb rs b (x + 1) :=
  fun _ _ ha' hlt => hbefore.upTo hc ha' (by omega)

theorem OccupiedBefore.nextBus (ha : AllowedCell s rb rs b x) (hlast : rs.isSome ∨ x = s.params.nslot - 1) :
    OccupiedBefore s rb rs (b + 1) (rs.getD 0) := by
  intro b' x' ha' hlt
  have hslot := ha.slot_le hlast ha'
  have hstart := ha'.start_le
  exact hbefore.upTo hc ha' (by omega)

/-- At the last allowed cell every allowed cell is occupied (spec R198). -/
theorem OccupiedBefore.all (ha : AllowedCell s rb rs b x) (hslot : rs.isSome ∨ x = s.params.nslot - 1)
    (hbus : b + 1 ≥ s.params.nbus ∨ rb.isSome) : IsFirstEmpty s rb rs none := by
  intro b' x' ha'
  have hx := ha.slot_le hslot ha'
  have hb := ha.bus_le hbus ha'
  exact hbefore.upTo hc ha' (by omega)

end Occupied

/-- The rows of cells from bus b on are that of bus b and those after it. -/
theorem rowsLeft_eq {nbus : Nat} (hb : b < nbus) (nslot : Nat) : (nbus - b) * nslot = (nbus - (b + 1)) * nslot + nslot := by
  rw [← Nat.succ_mul]
  congr 1
  omega

/-- With fuel for the cells that are left, the search stops at the first empty cell (spec R192, R198). -/
theorem autoSearch_isFirstEmpty {fuel : Nat} (ha : AllowedCell s rb rs b x) (hbefore : OccupiedBefore s rb rs b x)
    (hfuel : (s.params.nbus - b) * s.params.nslot ≤ fuel + x) : IsFirstEmpty s rb rs (autoSearch s rb rs fuel b x) := by
  induction fuel generalizing b x with
  | zero =>
    obtain ⟨hb, hx, -⟩ := ha
    have hrows := rowsLeft_eq hb s.params.nslot
    omega
  | succ fuel ih =>
    have ⟨hb, hx, _⟩ := ha
    have hrows := rowsLeft_eq hb s.params.nslot
    rw [autoSearch]
    split
    · next hc => exact ⟨ha, hc, hbefore⟩
    next hc =>
    split
    · next hslot =>
      split
      · next hbus => exact hbefore.all hc ha hslot hbus
      · next hbus => exact ih (ha.nextBus hbus) (hbefore.nextBus hc ha hslot) (by omega)
    · next hslot => exact ih (ha.nextSlot hslot) (hbefore.nextSlot hc) (by omega)

/-- The cell PlaceAuto takes is the first empty one (spec R192, R198). -/
theorem autoCell_isFirstEmpty (hrb : ∀ b0, rb = some b0 → b0 < s.params.nbus)
    (hrs : ∀ x0, rs = some x0 → x0 < s.params.nslot) : IsFirstEmpty s rb rs (autoCell s rb rs) := by
  refine autoSearch_isFirstEmpty (allowedCell_start hrb hrs) (fun b x ha hlt => ?_) ?_
  · have hstart := ha.start_le
    omega
  · exact (Nat.mul_le_mul_right _ (Nat.sub_le _ _)).trans (Nat.le_add_right _ _)

/-- The deferred initialization leaves which cell is the first empty one. -/
theorem isFirstEmpty_doInit {o : Option (Nat × Nat)} : IsFirstEmpty (doInit s) rb rs o ↔ IsFirstEmpty s rb rs o := by
  rcases o with - | ⟨b, x⟩ <;> simp [IsFirstEmpty, OccupiedBefore, AllowedCell]

/-- PlaceAuto takes the first empty cell, also on the block it has just initialized (spec R192, R226). -/
theorem autoCell_doInit_eq {o : Option (Nat × Nat)} (hrb : ∀ b0, rb = some b0 → b0 < s.params.nbus)
    (hrs : ∀ x0, rs = some x0 → x0 < s.params.nslot) (ho : IsFirstEmpty s rb rs o) : autoCell (doInit s) rb rs = o :=
  (autoCell_isFirstEmpty (by simpa using hrb) (by simpa using hrs)).unique (isFirstEmpty_doInit.mpr ho)

end Search

/-- Without an explicit cell a placement is PlaceAuto (spec R191). -/
theorem place_auto {rb rs : Option Nat} (h : Handle) (before s : State) (hauto : rb = none ∨ rs = none) :
    place h rb rs before s = placeAuto h rb rs s := by
  rcases hauto with rfl | rfl
  · cases rs <;> rfl
  · cases rb <;> rfl

/-- Settles O39: the two cases are the two forms of the first empty cell. -/
theorem autoPlacementTakesTheFirstEmptyCell : Obligations.AutoPlacementTakesTheFirstEmptyCell := by
  intro s h rb rs hf hnull hd hreg hauto hrb hrs
  rw [exec_hRegister_inside rb rs hf hnull hd hreg hrb hrs, place_auto h _ _ hauto, placeAuto]
  refine ⟨fun b x hb hx hbus hslot hempty hbefore => ?found, fun hfull => ?none⟩
  case found =>
    have hfirst : IsFirstEmpty s rb rs (some (b, x)) :=
      ⟨⟨hb, hx, hbus, hslot⟩, hempty, fun b' x' ⟨hb', hx', hbus', hslot'⟩ => hbefore b' x' hb' hx' hbus' hslot'⟩
    rw [autoCell_doInit_eq hrb hrs hfirst]
    exact ⟨_, rfl, onlyCellFilled_placeAt h hx⟩
  case none =>
    have hfirst : IsFirstEmpty s rb rs none := fun b x ⟨hb, hx, hbus, hslot⟩ => hfull b x hb hx hbus hslot
    rw [autoCell_doInit_eq hrb hrs hfirst]
    exact congrArg _ (registerFails_doInit _ s)

/-! ## Where a registered device is found -/

/-- What H_REGISTER has done when it answers a next state: unlike `Performs`, it says which cell was filled. -/
inductive Registration (s : State) (h : Handle) (rb rs : Option Nat) : State → Prop
  /-- It failed with a code (spec R252). -/
  | fails (c : FailCode) : Registration s h rb rs (registerFails c (doInit s))
  /-- It was an explicit collision (spec R253). -/
  | collides : Registration s h rb rs (raiseFatal s)
  /-- It stored the device at an allowed cell (spec R194). -/
  | places (b x : Nat) (ha : AllowedCell s rb rs b x) : Registration s h rb rs (placeAt h b x (doInit s))

section Registered

variable {s t : State} {h : Handle} {rb rs : Option Nat}

theorem registration_of_next_eq {u : State} (hu : Registration s h rb rs u)
    (hn : Host.Outcome.next (φ := Fault) (ρ := Refusal) u = .next t) : Registration s h rb rs t := by
  cases hn
  exact hu

section Place

variable (h) (hrb : ∀ b0, rb = some b0 → b0 < s.params.nbus) (hrs : ∀ x0, rs = some x0 → x0 < s.params.nslot)
include hrb hrs

theorem placeAuto_registration : Registration s h rb rs (placeAuto h rb rs (doInit s)) := by
  have hfirst := autoCell_isFirstEmpty hrb hrs
  rw [placeAuto, autoCell_doInit_eq hrb hrs hfirst]
  split
  · next b x hc =>
    rw [hc] at hfirst
    obtain ⟨ha, -⟩ := hfirst
    exact .places b x ha
  · exact .fails _

theorem place_registration : Registration s h rb rs (place h rb rs s (doInit s)) := by
  unfold place
  split
  · unfold placeExplicit
    split
    · exact .places _ _ (allowedCell_start hrb hrs)
    · exact .collides
  all_goals exact placeAuto_registration h hrb hrs

end Place

theorem hRegister_registration (hn : exec (.hRegister h rb rs) s = .next t) : Registration s h rb rs t := by
  obtain ⟨-, hn⟩ := whenAlive_next hn
  split at hn
  · exact registration_of_next_eq (.fails _) hn
  split at hn
  · cases hn
  split at hn
  · cases hn
  split at hn
  · exact registration_of_next_eq (.fails _) hn
  next hrb =>
  split at hn
  · exact registration_of_next_eq (.fails _) hn
  next hrs =>
  rw [Bool.not_eq_true, beyondTable_eq_false] at hrb hrs
  exact registration_of_next_eq (place_registration h hrb hrs) hn

end Registered

/-- A latch that addresses the cell of a device reaches it (spec R130). -/
theorem targetIs_withLatch {s : State} {l : BitVec 32} {h : Handle} {b x : Nat} (hb : b < s.params.nbus)
    (hx : x < s.params.nslot) (hc : cellAt s b x = some h) (hen : l.getLsbD 31 = true)
    (hlb : (l.extractLsb' 16 8).toNat = b) (hlx : (l.extractLsb' 11 5).toNat = x) :
    targetIs { s with latch := l } h := by
  subst hlb hlx
  exact ⟨hen, hb, hx, hc⟩

/-- Settles O40: the device is in the allowed cell it was stored at, and a registration that stored none returns no slot. -/
theorem registrationIsSeenAtOnce : Obligations.RegistrationIsSeenAtOnce := by
  intro s t h rb rs x hn hout
  cases hRegister_registration hn with
  | fails c => simp [registerFails] at hout
  | collides => simp at hout
  | places b x' ha =>
    obtain rfl : x' = x := by simpa [placeAt] using hout
    obtain ⟨hb, hx, hbus, hslot⟩ := ha
    have hparams : (placeAt h b x' (doInit s)).params = s.params := doInit_params s
    rw [← hparams] at hb hx
    exact ⟨b, hb, hx, hbus, hslot, fun l => targetIs_withLatch hb hx (cellAt_fillCell_same _ h b x')⟩

/-! ## H_UNREGISTER of a handle in no cell -/

theorem exec_hUnregister_unregistered {s : State} {h : Handle} (hf : s.fatal = false) (hreg : registered s h = false) :
    exec (.hUnregister h) s = .next (respond (.bool false) s) := by
  refine (whenAlive_alive hf _).trans ?_
  rw [cellOf_none.mpr hreg]

/-- `null` is in no cell: every cell holds a live device, and `null` was never returned (spec R11, R26). -/
theorem State.Inv.registered_null {s : State} (hs : s.Inv) : registered s nullHandle = false :=
  registered_eq_false.mpr fun e he hnull => hs.cellsLive e he (hnull ▸ hs.deviceOf_eq_none hs.nullNotIssued)

/-- Settles O42: no cell is found for the handle. -/
theorem unregisterOfAnUnregisteredIsFalse : Obligations.UnregisterOfAnUnregisteredIsFalse :=
  ⟨fun _ _ => exec_hUnregister_unregistered, fun _ => State.Inv.registered_null⟩

end Sys2Proof.Machine

/-! PROOFS of the family 44_lifecycle. What H_INIT, H_SHUTDOWN, H_IS_INIT and H_DESTROY answer while `fatal` is clear, and
the flag a registration leaves (O44, O45, O46, O49). -/

namespace Sys2Proof.Machine

open Sys2Proof

/-! ## Bring-up and teardown -/

/-- Settles O44: DoInit leaves `init` set, whether or not it was set before. -/
theorem hInitInstallsTheDecode : Obligations.HInitInstallsTheDecode := by
  intro s hf
  refine (whenAlive_alive hf _).trans ?_
  rw [doInit_eq, respond]

/-- Settles O45: shutdown keeps the records of the handles that are in no cell. -/
theorem hShutdownTearsDown : Obligations.HShutdownTearsDown := fun s hf =>
  ⟨respond .done (shutDown s), whenAlive_alive hf _, rfl, deviceOf_shutDown s⟩

/-! ## The flag H_IS_INIT reports -/

/-- The answer is stated for a known value of the flag: each use says what the flag is (spec R222). -/
theorem exec_hIsInit_of_init_eq {s : State} {b : Bool} (hf : s.fatal = false) (hi : s.init = b) :
    exec .hIsInit s = .next { s with outbox := .bool b :: s.outbox } := by
  subst hi
  exact whenAlive_alive hf _

/-- A registration that ends in a result leaves the block initialized, a failed one included (spec R222, R226). -/
theorem init_of_hRegister {s t : State} {h : Handle} {rb rs : Option Nat} (hn : exec (.hRegister h rb rs) s = .next t)
    (halive : t.fatal = false) : t.init = true := by
  cases hRegister_registration hn with
  | fails c => exact doInit_init s
  | collides => cases halive
  | places b x => exact doInit_init s

/-- H_INIT leaves `init` set and the fatal flag clear (spec R220). -/
theorem init_of_hInit {s t : State} (hn : exec .hInit s = .next t) : t.fatal = false ∧ t.init = true := by
  have hf := exec_next_alive hn
  rw [hInitInstallsTheDecode s hf] at hn
  cases hn
  exact ⟨hf, rfl⟩

/-- Settles O46, by the flag after power-on, a registration and H_INIT. -/
theorem hIsInitReportsTheFlag : Obligations.HIsInitReportsTheFlag := by
  refine ⟨fun _ => ?descriptor, fun _ hf => exec_hIsInit_of_init_eq hf rfl, fun _ _ _ _ _ hn halive => ?registered,
    fun p => ?powerOn, fun _ _ hn => ?initialized⟩
  case descriptor => exact decode_host _ 4
  case registered => exact exec_hIsInit_of_init_eq halive (init_of_hRegister hn halive)
  case powerOn => exact exec_hIsInit_of_init_eq (s := State.powerOn p) rfl rfl
  case initialized =>
    obtain ⟨hf, hi⟩ := init_of_hInit hn
    exact exec_hIsInit_of_init_eq hf hi

/-! ## Destroying a device -/

section HDestroy

variable {s : State} {h : Handle} (hf : s.fatal = false)
include hf

theorem exec_hDestroy_unknown (hd : deviceOf s h = none) : exec (.hDestroy h) s = .refused .unknownDevice :=
  (whenAlive_alive hf _).trans (if_pos hd)

theorem exec_hDestroy_registered (hd : deviceOf s h ≠ none) (hreg : registered s h = true) :
    exec (.hDestroy h) s = .refused .destroyRegistered := by
  refine (whenAlive_alive hf _).trans ?_
  rw [if_neg hd, if_pos hreg]

theorem exec_hDestroy_hostOwned (hd : deviceOf s h ≠ none) (hreg : registered s h = false) :
    exec (.hDestroy h) s = .next (respond .done (removeDevice h s)) := by
  refine (whenAlive_alive hf _).trans ?_
  rw [if_neg hd, hreg, if_neg Bool.false_ne_true]

end HDestroy

/-- Settles O49, by the two refusals in the order of their tests and the removal of one key from DS. -/
theorem hDestroyRemovesAHostOwnedDevice : Obligations.HDestroyRemovesAHostOwnedDevice := by
  refine fun s h hf => ⟨fun hd hreg => ?removed, exec_hDestroy_registered hf, exec_hDestroy_unknown hf⟩
  case removed =>
    exact ⟨_, exec_hDestroy_hostOwned hf hd hreg, rfl, deviceOf_removeDevice_same s h,
      fun h' => deviceOf_removeDevice_other s h h'⟩

end Sys2Proof.Machine

/-! PROOFS of the family 60_exceptions. Under the invariant a guest access is not claimed, finds no device, or finds a live
one, so it completes (O57); under `fatal` the fetch and every operation stop at the same test (O9). -/

namespace Sys2Proof.Machine

open Sys2Proof

/-! ## Guest transactions complete -/

/-- A data-port access goes nowhere or to a device in DS, because every occupied cell holds a live device (spec R26, R130). -/
theorem State.Inv.route_cases {s : State} (hs : s.Inv) (off : BitVec 2) :
    route s off = .absent ∨ ∃ h r d, route s off = .present h r ∧ deviceOf s h = some d := by
  obtain habsent | ⟨h, ht⟩ := target_cases s
  · exact .inl (route_absent off habsent)
  · have hroute := route_present off ht
    obtain ⟨-, -, -, hcell⟩ := ht
    obtain ⟨d, hd⟩ := Option.ne_none_iff_exists'.mp (hs.cellsLive _ (mem_of_mapGet hcell))
    exact .inr ⟨h, _, d, hroute, hd⟩

theorem devRead_completes {s : State} {h : Handle} {d : DeviceRecord} (r : BitVec 8) (w : Width)
    (hd : deviceOf s h = some d) : ∃ t, devRead h r w s = .next t := by
  rw [devRead, hd]
  exact ⟨_, rfl⟩

theorem devWrite_completes {s : State} {h : Handle} {d : DeviceRecord} (r : BitVec 8) (w : Width) (v : BitVec 32)
    (hd : deviceOf s h = some d) : ∃ t, devWrite h r w v s = .next t := by
  rw [devWrite, hd]
  exact ⟨_, rfl⟩

section Completes

variable {s : State} (hf : s.fatal = false)
include hf

/-- A guest access completes if what it does when claimed completes (spec R81, R250). -/
theorem whenClaimed_completes (dir : Dir) (w : Width) (port : BitVec 16) {o : Host.Outcome State Fault Refusal}
    (ho : s.init = true → ∃ t, o = .next t) : ∃ t, whenClaimed dir w port s o = .next t := by
  cases hi : s.init with
  | false => exact ⟨_, whenClaimed_unclaimed o hf hi⟩
  | true => exact (whenClaimed_claimed o hf hi).symm ▸ ho hi

/-- A narrow access that NARROW_ADDR does not refuse completes (spec R103 to R106). -/
theorem narrowAccess_completes (hp : s.params.narrowAddr ≠ .refuse) (dir : Dir) (w : Width) (u : State) :
    ∃ t, narrowAccess dir w s (.next u) = .next t := by
  cases hparam : s.params.narrowAddr with
  | refuse => exact absurd hparam hp
  | ignore => exact ⟨_, narrowAccess_unclaimed _ hf (.inl hparam)⟩
  | zextReplace =>
    cases hi : s.init with
    | false => exact ⟨_, narrowAccess_unclaimed _ hf (.inr ⟨hparam, hi⟩)⟩
    | true => exact ⟨u, narrowAccess_claimed _ hf hparam hi⟩

theorem State.Inv.dataRead_completes (hs : s.Inv) (w : Width) (off : BitVec 2) : ∃ t, dataRead w off s = .next t := by
  refine whenClaimed_completes hf _ _ _ fun _ => ?_
  obtain hroute | ⟨h, r, d, hroute, hd⟩ := hs.route_cases off <;> rw [hroute]
  · exact ⟨_, rfl⟩
  · exact devRead_completes r w hd

theorem State.Inv.dataWrite_completes (hs : s.Inv) (w : Width) (off : BitVec 2) (v : BitVec 32) :
    ∃ t, dataWrite w off v s = .next t := by
  refine whenClaimed_completes hf _ _ _ fun _ => ?_
  obtain hroute | ⟨h, r, d, hroute, hd⟩ := hs.route_cases off <;> rw [hroute]
  · exact ⟨_, rfl⟩
  · exact devWrite_completes r w v hd

end Completes

/-- Settles O57: a latch access needs no device, and a data-port access finds none or a live one. -/
theorem guestTransactionsNeverFail : Obligations.GuestTransactionsNeverFail := by
  intro s i hs hf hg hnarrow
  cases i with
  | caRd32 | caWr32 v => exact whenClaimed_completes hf _ _ _ fun _ => ⟨_, rfl⟩
  | caRd8 | caRd16 | caWr8 v | caWr16 v => exact narrowAccess_completes hf (hnarrow rfl) _ _ _
  | cdRd8 off | cdRd16 off | cdRd32 off => exact hs.dataRead_completes hf _ off
  | cdWr8 off v | cdWr16 off v | cdWr32 off v => exact hs.dataWrite_completes hf _ off _
  | _ => cases hg

/-! ## The fatal flag -/

section Fatal

variable {s : State} (hf : s.fatal = true)
include hf

theorem fetch_dead : fetch s = .dead := if_pos hf

/-- Every operation tests the fatal flag before all else (spec R254, R257). -/
theorem exec_afterFatal (i : Instr) : exec i s = .fault .afterFatal := by
  cases i <;> exact whenAlive_fatal hf _

end Fatal

/-- Settles O9, by the test of the flag in the fetch and in every operation. -/
theorem nothingRunsAfterFatal : Obligations.NothingRunsAfterFatal := by
  intro s hf
  exact ⟨by rw [step, fetch_dead hf], exec_afterFatal hf⟩

end Sys2Proof.Machine
